-- ==== Sys2Proof/Word.lean ====
section
/-! DEFINITION. The word types of QRECC: the data bus is 32 bits wide, a codeword is 8 bits wide, a bus address is a
20-bit byte offset into the block's 1 MiB window (00_scope.md R11, 20_memory.md R50). Bit 0 is the least significant
bit of every one of them and nothing is signed (R12). -/

namespace Sys2Proof

/-- A bus data word, a register, a command word (R11, R70). -/
abbrev Word := BitVec 32

/-- A codeword, a GF(256) element, an argument field of a command (R11, R72, R91). -/
abbrev Byte := BitVec 8

/-- A byte address on the block's bus: an offset from `P_BASE` (R11, R50). -/
abbrev BusAddr := BitVec 20

/-- A mask id, 0 to 7 (R120). -/
abbrev MaskId := BitVec 3

end Sys2Proof
end

