-- ==== Sys2Proof/Syntax.lean ====
section
/-! DEFINITION. The twelve commands of QRECC, one constructor per row of spec/opcode_table.json (30_encoding.md R73).
An operand has exactly the bits its row's encoding gives it; limits that depend on the implementation
(`1 ≤ v ≤ P_MAX_VERSION`, `1 ≤ n ≤ P_MAX_EC`) are in WellFormed.lean. -/

namespace Sys2Proof

/-- A decoded command (R73). -/
inductive Instr where
  /-- `NOP`, opcode 0x00 (R165). -/
  | nop
  /-- `SET_VERSION v`, opcode 0x01 (R166). -/
  | setVersion (v : BitVec 8)
  /-- `GF_MUL a, b`, opcode 0x10 (R94). -/
  | gfMul (a b : BitVec 8)
  /-- `GF_EXP i`, opcode 0x11 (R95). -/
  | gfExp (i : BitVec 8)
  /-- `RS_SETUP n`, opcode 0x20 (R104). -/
  | rsSetup (n : BitVec 8)
  /-- `RS_CLEAR`, opcode 0x21 (R105). -/
  | rsClear
  /-- `RS_FEED d`, opcode 0x22 (R106). -/
  | rsFeed (d : BitVec 8)
  /-- `PEN_SCORE m`, opcode 0x30 (R130). -/
  | penScore (m : BitVec 3)
  /-- `MASK_EVAL`, opcode 0x31 (R131). -/
  | maskEval
  /-- `MASK_APPLY m`, opcode 0x32 (R133). -/
  | maskApply (m : BitVec 3)
  /-- `BCH_FORMAT e, m`, opcode 0x40 (R152). -/
  | bchFormat (e : BitVec 2) (m : BitVec 3)
  /-- `BCH_VERSION v`, opcode 0x41 (R153). -/
  | bchVersion (v : BitVec 6)
deriving DecidableEq, Repr

end Sys2Proof
end

