-- ==== Sys2Proof/Decode.lean ====
section
/-! DEFINITION. The decoder and the encoder of the one command format CMDW (30_encoding.md R70 to R77, R81). Decoding
is total: every 32-bit word is a command of the table, or is rejected by the name of the result code it completes with
(R75, R180, R183). -/

namespace Sys2Proof

/-- OP, bits 7:0 of a command word (R70). -/
def opField (w : Word) : Byte := w.extractLsb' 0 8

/-- A, bits 15:8 of a command word (R70). -/
def argA (w : Word) : Byte := w.extractLsb' 8 8

/-- B, bits 23:16 of a command word (R70). -/
def argB (w : Word) : Byte := w.extractLsb' 16 8

/-- RSV, bits 31:24 of a command word, which must be 0 (R70). -/
def rsvField (w : Word) : Byte := w.extractLsb' 24 8

/-- What the decoder makes of a word (R81). -/
inductive Decoded where
  /-- The word is the command `i`. -/
  | instr (i : Instr)
  /-- OP is reserved (R75): the command completes with ILLEGAL_OP. -/
  | illegalOp
  /-- OP is listed, but RSV is not 0 or an argument is outside what the row's encoding admits (R74): BAD_ARG. -/
  | badArg
deriving DecidableEq, Repr

/-- The listed opcodes (R73). Every other value of OP is reserved (R75). -/
def listedOps : List Byte :=
  [0x00#8, 0x01#8, 0x10#8, 0x11#8, 0x20#8, 0x21#8, 0x22#8, 0x30#8, 0x31#8, 0x32#8, 0x40#8, 0x41#8]

/-- The command of a listed opcode with arguments A and B, if each argument is one its row's encoding admits (R73,
R74): a field given as "0" is 0, a mask id is at most 7, a level code at most 3, a BCH version at most 63. -/
def decodeArgs (op a b : Byte) : Option Instr :=
  if op = 0x00#8 then (if a = 0#8 ∧ b = 0#8 then some .nop else none)
  else if op = 0x01#8 then (if b = 0#8 then some (.setVersion a) else none)
  else if op = 0x10#8 then some (.gfMul a b)
  else if op = 0x11#8 then (if b = 0#8 then some (.gfExp a) else none)
  else if op = 0x20#8 then (if b = 0#8 then some (.rsSetup a) else none)
  else if op = 0x21#8 then (if a = 0#8 ∧ b = 0#8 then some .rsClear else none)
  else if op = 0x22#8 then (if b = 0#8 then some (.rsFeed a) else none)
  else if op = 0x30#8 then (if a.toNat ≤ 7 ∧ b = 0#8 then some (.penScore (a.setWidth 3)) else none)
  else if op = 0x31#8 then (if a = 0#8 ∧ b = 0#8 then some .maskEval else none)
  else if op = 0x32#8 then (if a.toNat ≤ 7 ∧ b = 0#8 then some (.maskApply (a.setWidth 3)) else none)
  else if op = 0x40#8 then
    (if a.toNat ≤ 3 ∧ b.toNat ≤ 7 then some (.bchFormat (a.setWidth 2) (b.setWidth 3)) else none)
  else if op = 0x41#8 then (if a.toNat ≤ 63 ∧ b = 0#8 then some (.bchVersion (a.setWidth 6)) else none)
  else none

/-- The decoding procedure (R81): OP first, then RSV, then A and B. -/
def decode (w : Word) : Decoded :=
  if opField w ∉ listedOps then .illegalOp
  else if rsvField w ≠ 0#8 then .badArg
  else match decodeArgs (opField w) (argA w) (argB w) with
    | some i => .instr i
    | none => .badArg

/-- What the host of this pipeline asks: the command the decoder reads from a word of `nbits` bits, the bits above
them 0. A command is exactly one 32-bit word (R71). -/
def decodeTableWord (nbits w : Nat) : Option Instr :=
  if w % 2 ^ nbits < 2 ^ 32 then
    match decode (BitVec.ofNat 32 (w % 2 ^ nbits)) with
    | .instr i => some i
    | .illegalOp => none
    | .badArg => none
  else none

/-- The opcode of a command (R73). -/
def Instr.opcode : Instr → Byte
  | .nop => 0x00#8
  | .setVersion _ => 0x01#8
  | .gfMul _ _ => 0x10#8
  | .gfExp _ => 0x11#8
  | .rsSetup _ => 0x20#8
  | .rsClear => 0x21#8
  | .rsFeed _ => 0x22#8
  | .penScore _ => 0x30#8
  | .maskEval => 0x31#8
  | .maskApply _ => 0x32#8
  | .bchFormat _ _ => 0x40#8
  | .bchVersion _ => 0x41#8

/-- The encoding formula with RSV = 0 (R77). -/
def commandWord (op a b : Byte) : Word :=
  (b.setWidth 32 <<< 16) ||| (a.setWidth 32 <<< 8) ||| op.setWidth 32

/-- The word of a command (R77); an argument the command does not use is 0 (R74). -/
def encode (i : Instr) : Word :=
  match i with
  | .nop => commandWord i.opcode 0#8 0#8
  | .setVersion v => commandWord i.opcode v 0#8
  | .gfMul a b => commandWord i.opcode a b
  | .gfExp e => commandWord i.opcode e 0#8
  | .rsSetup n => commandWord i.opcode n 0#8
  | .rsClear => commandWord i.opcode 0#8 0#8
  | .rsFeed d => commandWord i.opcode d 0#8
  | .penScore m => commandWord i.opcode (m.setWidth 8) 0#8
  | .maskEval => commandWord i.opcode 0#8 0#8
  | .maskApply m => commandWord i.opcode (m.setWidth 8) 0#8
  | .bchFormat e m => commandWord i.opcode (e.setWidth 8) (m.setWidth 8)
  | .bchVersion v => commandWord i.opcode (v.setWidth 8) 0#8

end Sys2Proof
end

