-- ==== Sys2Proof/Config.lean ====
section
/-! DEFINITION. What an implementation of QRECC fixes (00_scope.md R7, R8; 20_memory.md R50) and the values the spec
leaves free (93_implementation_defined.md U1, U2). A free value is an opaque constant with no body: no proof can see
what it is, so every claim holds whatever it is. -/

namespace Sys2Proof

/-- The implementation parameters that `PARAMS` reports (R7, R8, R23). They are configuration, not state that a step
can change (R20); the machine's State carries them so that every claim about a state is a claim about every
implementation. -/
structure Params where
  /-- `P_MAX_EC`: the number of `GEN` and `REM` registers, 1 to 64 (R7). -/
  maxEc : BitVec 8
  /-- `P_MAX_VERSION`: the largest version `SET_VERSION` accepts, 1 to 40 (R8). -/
  maxVersion : BitVec 8
deriving DecidableEq, Repr

/-- The ranges the spec gives the two parameters (R7, R8). -/
def Params.wf (p : Params) : Bool :=
  1 ≤ p.maxEc.toNat && p.maxEc.toNat ≤ 64 && 1 ≤ p.maxVersion.toNat && p.maxVersion.toNat ≤ 40

/-- The spec's defaults, `P_MAX_EC = 30` and `P_MAX_VERSION = 40` (R7, R8). -/
def Params.default : Params := { maxEc := 30#8, maxVersion := 40#8 }

/-- FREE VALUE (U1, R46): what the matrix cell at a bus address holds after the `k`-th reset until a write reaches it,
as FUNC ++ DARK. One fixed value for each cell and each reset, as U1 allows (log entry 1). -/
opaque Config.freeCell (k : Nat) (addr : Nat) : BitVec 2

/-- FREE VALUE (U2, R220): the `k`-th answer `draw()` gives to a read of a hidden register while a command is in
flight (log entry 2). -/
opaque Config.freeDraw (k : Nat) : BitVec 32

/-- FREE VALUE (U5, R50): which 1 MiB of the system address map the platform gives the block's window (log entry 14). -/
opaque Config.pBaseMiB : Nat

/-- `P_BASE`, the system address of the block's 1 MiB window: any 1 MiB-aligned address (R50; 92_eei_decisions.md, "Open
parameters"). -/
def Config.pBase : Nat := 0x100000 * Config.pBaseMiB

end Sys2Proof
end

