-- ==== Sys2Proof/Machine/State.lean ====
section
/-! DEFINITION. The state of the machine: every piece of architectural state the spec gives the block (10_state.md R20
to R47), the two agents' own data (the Host's program, its position and temporaries, 30_encoding.md R79; the order in
which the agents move, R15, R218), and the counters that number the free values. All of it is plain data.

Hard-wired or derived registers are not stored a second time: `ID` is a constant (R22), `PARAMS` shows `params` (R23),
`CMD` stores nothing (R27), `STATUS.BUSY`, `STATUS.RS_READY`, `STATUS.VER_READY`, `CFG.N` and `irq` are functions of
other state (R20, R25, R29). Flags.lean and Bus.lean compute them. -/

namespace Sys2Proof.Machine

/-- The result code of a completed command (60_exceptions.md R180). The codes 4 to 15 are never produced (U9), so they
have no constructor. -/
inductive ResultCode where
  /-- 0: the command was performed. -/
  | ok
  /-- 1: OP is a reserved opcode. -/
  | illegalOp
  /-- 2: RSV is not 0, or an argument is outside its range. -/
  | badArg
  /-- 3: the command needs `CFG.EC_LEN` or `CFG.VERSION` and it is 0. -/
  | notConfigured
deriving DecidableEq, Repr

/-- One cell of the matrix RAM (R37). -/
structure QrCell where
  /-- `DARK`: the module is dark. -/
  dark : Bool
  /-- `FUNC`: the module is a function module. -/
  func : Bool
deriving DecidableEq, Repr

/-- The matrix RAM: the cells that a write has reached since the last reset (R37, R46). A listed pair is the bus
address of a cell and byte lane 0 of its word, which holds `FUNC` in bit 1 and `DARK` in bit 0; the other three lanes
of a cell's word read 0. A cell that is not listed holds a free value. -/
abbrev Memory := List Host.Cell

/-- One operation of a Host program, its label already resolved to a position (R79). -/
inductive HostOp where
  /-- A bus write of `v` with the given byte strobes; `wr` sets all four (R51, R52). -/
  | write (addr : BusAddr) (strobes : BitVec 4) (v : Word)
  /-- `rd ADDR -> tK`. -/
  | read (addr : BusAddr) (t : Nat)
  /-- `bnz tK, MASK, label`. -/
  | bnz (t : Nat) (mask : Word) (target : Nat)
  /-- `beq tK, VALUE, label`. -/
  | beq (t : Nat) (value : Word) (target : Nat)
deriving DecidableEq, Repr

/-- The block's answer to a bus transaction (R50, R181). -/
inductive Response where
  /-- OKAY to a write. -/
  | written
  /-- OKAY to a read, with the data word. -/
  | data (v : Word)
  /-- ERROR: `BusError(addr)`. -/
  | error (addr : BusAddr)
deriving DecidableEq, Repr

/-- Who moves next (R15): one of the two agents, or the reset input is pulsed (R210). -/
inductive Move where
  /-- A step of the Host. -/
  | host
  /-- A step of the Engine. -/
  | engine
  /-- The reset input `rst` is asserted and released. -/
  | rst
deriving DecidableEq, Repr

/-- The state of the block and of its surroundings. -/
structure State where
  /-- The parameters shown by `PARAMS` (R23). No step changes them. -/
  params : Params
  /-- `CTRL.IE_DONE` (R24). -/
  ieDone : Bool
  /-- `CTRL.IE_ERR` (R24). -/
  ieErr : Bool
  /-- `STATUS.ERR` (R25). -/
  err : ResultCode
  /-- `STATUS.LAST_OP` (R25). -/
  lastOp : BitVec 8
  /-- `IRQ_STAT.DONE` (R26). -/
  irqDone : Bool
  /-- `IRQ_STAT.ERR` (R26). -/
  irqErr : Bool
  /-- `INFLIGHT`, the accepted command word (R44). -/
  inflight : Option (BitVec 32)
  /-- `RESULT` (R28). -/
  result : BitVec 32
  /-- `RESULT_AUX` (R28). -/
  resultAux : BitVec 32
  /-- `CFG.EC_LEN` (R29). -/
  ecLen : BitVec 8
  /-- `CFG.VERSION` (R29). -/
  version : BitVec 8
  /-- `FEED_CNT` bits 15:0 (R30). -/
  feedCnt : BitVec 16
  /-- `SEL.SEL_MASK` (R31). -/
  selMask : BitVec 3
  /-- `SEL.SEL_VALID` (R31). -/
  selValid : Bool
  /-- `BEST_SCORE` (R32). -/
  bestScore : BitVec 32
  /-- `GEN[0..P_MAX_EC−1]`, bits 7:0 (R33). -/
  gen : List (BitVec 8)
  /-- `REM[0..P_MAX_EC−1]`, bits 7:0 (R34). -/
  rem : List (BitVec 8)
  /-- `SCORE[0..7]` (R35). -/
  score : Vector (BitVec 32) 8
  /-- `PEN[0..7][1..4]` (R36); `PEN[m][k]` is entry `k − 1` of entry `m`. -/
  pen : Vector (Vector (BitVec 32) 4) 8
  /-- The written cells of the matrix RAM (R37, R38). -/
  mem : Memory
  /-- MODEL'S OWN: how many resets there have been; it numbers the free contents of unwritten cells (U1). -/
  resets : Nat
  /-- MODEL'S OWN: how many times `draw()` has been used; it numbers the free answers (U2, R220). -/
  draws : Nat
  /-- MODEL'S OWN: the moves to come, in order (R64, R218). When it is empty the Engine moves if it can. -/
  schedule : List Move
  /-- THE HOST'S: its program (R79). -/
  hostProg : List HostOp
  /-- THE HOST'S: its position in the program (R21, R79). -/
  hostPc : Nat
  /-- THE HOST'S: its temporaries that have been written, by number, in rising order (R79). -/
  temps : List (Nat × BitVec 32)
  /-- The answer to the last bus transaction (R50). -/
  resp : Option Response
deriving DecidableEq, Repr

/-- What can stop the machine. Nothing can: "No other fault exists. Every Host transaction ends with OKAY or ERROR.
Every accepted command completes" (R182). A bus error is a next state whose `resp` is `error` and a failed command is
a next state whose `err` is its result code, so this type has no constructor. -/
inductive Fault where
deriving DecidableEq, Repr

/-- A command without a meaning. -/
inductive Refusal where
  /-- Raised by an arm of `exec` whose command has no meaning yet, by its mnemonic; safe. No arm raises it: all twelve
  commands have their meaning. -/
  | notModelled (mnemonic : String)
deriving DecidableEq, Repr

/-- The state right after a power-on reset (R46, R210) of a block with the default parameters, with no Host program:
every register 0, no command in flight, no cell written. -/
def State.reset : State where
  params := Params.default
  ieDone := false
  ieErr := false
  err := .ok
  lastOp := 0#8
  irqDone := false
  irqErr := false
  inflight := none
  result := 0#32
  resultAux := 0#32
  ecLen := 0#8
  version := 0#8
  feedCnt := 0#16
  selMask := 0#3
  selValid := false
  bestScore := 0#32
  gen := List.replicate 30 0#8
  rem := List.replicate 30 0#8
  score := Vector.replicate 8 0#32
  pen := Vector.replicate 8 (Vector.replicate 4 0#32)
  mem := []
  resets := 0
  draws := 0
  schedule := []
  hostProg := []
  hostPc := 0
  temps := []
  resp := none

end Sys2Proof.Machine
end

