-- ==== Sys2Proof/Machine/Operands.lean ====
section
/-! DEFINITION. How each command reads its arguments (30_encoding.md R72): each is an unsigned number with no sign
extension, scaling or shift, used as a GF(256) element, an exponent, a count, a version, a mask id or a level code. A count or a
version is `toNat` of its field; the forms that need more than that are here. -/

namespace Sys2Proof.Machine

/-- The exponent of `GF_EXP`, reduced modulo 255 (R95). -/
def exponent (i : Byte) : Nat := i.toNat % 255

/-- The five data bits of the format word: the level code in bits 4:3, the mask id in bits 2:0 (R152). -/
def formatData (e : BitVec 2) (m : MaskId) : Nat := e.toNat * 8 + m.toNat

/-- The mask ids in the order in which they are scored and in which ties are broken (R131, R132). -/
def allMasks : List MaskId := [0#3, 1#3, 2#3, 3#3, 4#3, 5#3, 6#3, 7#3]

end Sys2Proof.Machine
end

