-- ==== Sys2Proof/Machine/Ops.lean ====
section
/-! DEFINITION. The named operations over the state: the matrix RAM (10_state.md R37 to R41), the completion record
that every command leaves (44_control.md R163), and the reset of the block (70_reset_and_hazards.md R210, R212). -/

namespace Sys2Proof.Machine

/-! ## Lists of key and value pairs, the key rising -/

/-- The value listed for a key. The list is in rising order, so a larger key ends the search. -/
def assocGet {α : Type} (k : Nat) : List (Nat × α) → Option α
  | [] => none
  | (j, v) :: rest => if k = j then some v else if k < j then none else assocGet k rest

/-- List a value for a key, keeping the rising order. -/
def assocSet {α : Type} (k : Nat) (v : α) : List (Nat × α) → List (Nat × α)
  | [] => [(k, v)]
  | (j, w) :: rest =>
    if k = j then (k, v) :: rest else if k < j then (k, v) :: (j, w) :: rest else (j, w) :: assocSet k v rest

/-- The keys rise strictly. -/
def keysRise {α : Type} : List (Nat × α) → Bool
  | [] => true
  | [_] => true
  | (j, _) :: (k, w) :: rest => decide (j < k) && keysRise ((k, w) :: rest)

/-! ## The matrix RAM -/

end Sys2Proof.Machine

/-- `NMAX = 17 + 4·P_MAX_VERSION`, the side of the matrix RAM (R8). -/
def Sys2Proof.Params.nmax (p : Sys2Proof.Params) : Nat := 17 + 4 * p.maxVersion.toNat

namespace Sys2Proof.Machine

/-- The bus address of `CELL(r,c)` (R55). -/
def cellAddr (r c : Nat) : Nat := 0x10000 + 4 * (256 * r + c)

/-- The row that an address of the matrix window selects: `off[17:10]` (R56). -/
def rowOfAddr (addr : Nat) : Nat := (addr - 0x10000) / 1024 % 256

/-- The column that an address of the matrix window selects: `off[9:2]` (R56). -/
def colOfAddr (addr : Nat) : Nat := (addr - 0x10000) / 4 % 256

/-- The aligned addresses of the matrix window that are mapped (R56). -/
def isCellAddr (nmax addr : Nat) : Bool :=
  addr % 4 == 0 && decide (0x10000 ≤ addr) && decide (addr ≤ 0x4FFFC) && decide (rowOfAddr addr < nmax)
    && decide (colOfAddr addr < nmax)

/-- The byte lane 0 of a cell's word: FUNC in bit 1, DARK in bit 0, the rest 0 (R37). -/
def QrCell.toByte (c : QrCell) : Byte := 0#6 ++ BitVec.ofBool c.func ++ BitVec.ofBool c.dark

/-- The cell that a byte lane 0 holds (R37, R60). -/
def QrCell.ofByte (b : Byte) : QrCell := { dark := b.getLsbD 0, func := b.getLsbD 1 }

/-- The byte written at an address since the last reset, if there is one. -/
def Memory.read (m : Memory) (addr : Nat) : Option Byte := assocGet addr m

/-- Write a byte at an address. -/
def Memory.write (m : Memory) (addr : Nat) (b : Byte) : Memory := assocSet addr b m

/-- The canonical form of the matrix RAM of side `nmax`: addresses strictly rising, each the address of a mapped cell,
and no byte with a bit above FUNC and DARK. An unlisted cell holds no written value, so no listed entry can stand for
"unwritten". -/
def Memory.wf (nmax : Nat) (m : Memory) : Bool :=
  keysRise m && m.all (fun e => isCellAddr nmax e.1 && decide (e.2.toNat < 4))

/-- What an unlisted address reads as after the `k`-th reset: the free contents of an unwritten cell (U1). -/
def unwrittenByte (k addr : Nat) : Byte := 0#6 ++ Config.freeCell k addr

/-- Byte lane 0 of the cell word at an address, written or not. -/
def State.byteAt (s : State) (addr : Nat) : Byte :=
  match s.mem.read addr with
  | some b => b
  | none => unwrittenByte s.resets addr

/-- `CELL(r,c)` (R37, R61). -/
def State.cellAt (s : State) (r c : Nat) : QrCell := QrCell.ofByte (s.byteAt (cellAddr r c))

/-- The cell `CELL(r,c)` has been written since the last reset (U1). DESIGN CHOICE (log entry 23): a cell that no Host
write has reached but that `MASK_APPLY` has flipped counts as written. -/
def State.written (s : State) (r c : Nat) : Bool := (s.mem.read (cellAddr r c)).isSome

/-- `CFG.N`: 0 when VERSION is 0, otherwise 17 + 4·VERSION (R9, R29). -/
def State.side (s : State) : Nat := if s.version = 0#8 then 0 else 17 + 4 * s.version.toNat

/-- The cells of the active region, row by row (R39). -/
def State.active (s : State) : List (List QrCell) :=
  (List.range s.side).map fun r => (List.range s.side).map fun c => s.cellAt r c

/-! ## The register arrays -/

/-- Entry `i` of a register array, `GEN[i]` or `REM[i]`; a register that does not exist holds nothing to read and
counts as 0. -/
def regAt (regs : List Byte) (i : Nat) : Byte := regs.getD i 0#8

/-! ## The completion of a command -/

/-- The completion record, written in one Engine step (R163). This is also the whole "entry" of a command error:
the block has no trap (R187). -/
def complete (code : ResultCode) (op : Byte) (s : State) : State :=
  { s with
    err := code
    lastOp := op
    irqDone := true
    irqErr := s.irqErr || decide (code ≠ .ok)
    inflight := none }

/-- Execute a command (R162): its effect if the result code is OK, and the completion record in any case. -/
def finish (i : Instr) (code : ResultCode) (perform : State → State) (s : State) :
    Host.Outcome State Fault Refusal :=
  .next (complete code i.opcode (if code = .ok then perform s else s))

/-! ## Reset -/

/-- Reset the block (R46, R210, R212): every register to its reset value, no command in flight, every cell
unspecified. What is not the block's (the Host's program, the moves to come) and the parameters stay. -/
def resetBlock (s : State) : State :=
  { State.reset with
    params := s.params
    gen := List.replicate s.params.maxEc.toNat 0#8
    rem := List.replicate s.params.maxEc.toNat 0#8
    resets := s.resets + 1
    draws := s.draws
    schedule := s.schedule
    hostProg := s.hostProg
    hostPc := s.hostPc
    temps := s.temps
    resp := s.resp }

end Sys2Proof.Machine
end

