-- ==== Sys2Proof/Machine/Flags.lean ====
section
/-! DEFINITION. Every flag and field the block computes from its state (10_state.md R22 to R31, R42; 60_exceptions.md
R180, R190), and the check that decides a command's result code (60_exceptions.md R183). Reserved bits read 0 (R43). -/

namespace Sys2Proof.Machine

/-! ## Flags -/

/-- `STATUS.BUSY`: a command is in flight (R25, R44). -/
def State.busy (s : State) : Bool := s.inflight.isSome

/-- `STATUS.RS_READY`: `CFG.EC_LEN ≠ 0` (R25). -/
def State.rsReady (s : State) : Bool := decide (s.ecLen ≠ 0#8)

/-- `STATUS.VER_READY`: `CFG.VERSION ≠ 0` (R25). -/
def State.verReady (s : State) : Bool := decide (s.version ≠ 0#8)

/-- The interrupt output, a function of state with no pending latch (R190). -/
def State.irq (s : State) : Bool := (s.ieDone && s.irqDone) || (s.ieErr && s.irqErr)

/-- The 4-bit result code (R180). -/
def ResultCode.bits : ResultCode → BitVec 4
  | .ok => 0#4
  | .illegalOp => 1#4
  | .badArg => 2#4
  | .notConfigured => 3#4

/-! ## Register words -/

/-- `ID`, the constant "QREC" (R22). -/
def idWord : Word := 0x51524543#32

/-- `PARAMS`: NMAX in 23:16, MAX_VERSION in 15:8, MAX_EC in 7:0 (R23). -/
def State.paramsWord (s : State) : Word :=
  0#8 ++ BitVec.ofNat 8 s.params.nmax ++ s.params.maxVersion ++ s.params.maxEc

/-- `CTRL`: IE_ERR in bit 1, IE_DONE in bit 0; SRST reads 0 (R24). -/
def State.ctrlWord (s : State) : Word := 0#30 ++ BitVec.ofBool s.ieErr ++ BitVec.ofBool s.ieDone

/-- `STATUS`: LAST_OP in 23:16, ERR in 11:8, VER_READY, RS_READY and BUSY in bits 2, 1 and 0 (R25). -/
def State.statusWord (s : State) : Word :=
  0#8 ++ s.lastOp ++ 0#4 ++ s.err.bits ++ 0#5 ++ BitVec.ofBool s.verReady ++ BitVec.ofBool s.rsReady
    ++ BitVec.ofBool s.busy

/-- `IRQ_STAT`: ERR in bit 1, DONE in bit 0 (R26). -/
def State.irqStatWord (s : State) : Word := 0#30 ++ BitVec.ofBool s.irqErr ++ BitVec.ofBool s.irqDone

/-- `CFG`: N in 23:16, VERSION in 15:8, EC_LEN in 7:0 (R29). -/
def State.cfgWord (s : State) : Word := 0#8 ++ BitVec.ofNat 8 s.side ++ s.version ++ s.ecLen

/-- `FEED_CNT`: the count in 15:0 (R30). -/
def State.feedCntWord (s : State) : Word := s.feedCnt.setWidth 32

/-- `SEL`: SEL_VALID in bit 8, SEL_MASK in 2:0 (R31). -/
def State.selWord (s : State) : Word := 0#23 ++ BitVec.ofBool s.selValid ++ 0#5 ++ s.selMask

/-! ## The check -/

/-- OK if the condition holds, otherwise the given code. -/
def codeIf (cond : Bool) (code : ResultCode) : ResultCode := if cond then .ok else code

/-- The result code of `SET_VERSION v` (R166, R184). -/
def setVersionCode (v : Byte) (s : State) : ResultCode :=
  codeIf (decide (1 ≤ v.toNat) && decide (v.toNat ≤ s.params.maxVersion.toNat)) .badArg

/-- The result code of `RS_SETUP n` (R104, R184). -/
def rsSetupCode (n : Byte) (s : State) : ResultCode :=
  codeIf (decide (1 ≤ n.toNat) && decide (n.toNat ≤ s.params.maxEc.toNat)) .badArg

/-- The result code of a command that needs `CFG.EC_LEN ≠ 0`: RS_CLEAR and RS_FEED (R42, R183). -/
def needsEcLen (s : State) : ResultCode := codeIf s.rsReady .notConfigured

/-- The result code of a command that needs `CFG.VERSION ≠ 0`: PEN_SCORE, MASK_EVAL and MASK_APPLY (R42, R183). -/
def needsVersion (s : State) : ResultCode := codeIf s.verReady .notConfigured

/-- The arguments of a listed opcode lie in the ranges of its row (R73, R74). -/
def argsInRange (p : Params) (op a b : Byte) : Bool :=
  if op = 0x00#8 ∨ op = 0x21#8 ∨ op = 0x31#8 then decide (a = 0#8) && decide (b = 0#8)
  else if op = 0x01#8 then decide (1 ≤ a.toNat) && decide (a.toNat ≤ p.maxVersion.toNat) && decide (b = 0#8)
  else if op = 0x10#8 then true
  else if op = 0x11#8 ∨ op = 0x22#8 then decide (b = 0#8)
  else if op = 0x20#8 then decide (1 ≤ a.toNat) && decide (a.toNat ≤ p.maxEc.toNat) && decide (b = 0#8)
  else if op = 0x30#8 ∨ op = 0x32#8 then decide (a.toNat ≤ 7) && decide (b = 0#8)
  else if op = 0x40#8 then decide (a.toNat ≤ 3) && decide (b.toNat ≤ 7)
  else decide (a.toNat ≤ 63) && decide (b = 0#8)

/-- `check(w)`, the result code of a command word, the first failing test deciding it (R183, R185). -/
def check (w : Word) (s : State) : ResultCode :=
  if opField w ∉ listedOps then .illegalOp
  else if rsvField w ≠ 0#8 then .badArg
  else if argsInRange s.params (opField w) (argA w) (argB w) = false then .badArg
  else if (opField w = 0x21#8 ∨ opField w = 0x22#8) ∧ s.ecLen = 0#8 then .notConfigured
  else if (opField w = 0x30#8 ∨ opField w = 0x31#8 ∨ opField w = 0x32#8) ∧ s.version = 0#8 then .notConfigured
  else .ok

end Sys2Proof.Machine
end

