-- ==== Sys2Proof/Machine/GfArith.lean ====
section
/-! DEFINITION. GF(256) arithmetic and the commands GF_MUL and GF_EXP (40_gf_arith.md). -/

namespace Sys2Proof.Machine

/-- The field modulus p(x) = x⁸+x⁴+x³+x²+1 as a number (R90). -/
def fieldModulus : BitVec 15 := 0x11D#15

/-- The polynomial product of two elements, in a 15-bit accumulator: the first loop of `gfmul` (R92). -/
def polyProduct (a b : Byte) : BitVec 15 :=
  [0, 1, 2, 3, 4, 5, 6, 7].foldl (fun q i => if b.getLsbD i then q ^^^ (a.setWidth 15 <<< i) else q) 0#15

/-- Reduce a product modulo p(x): the second loop of `gfmul` (R92). -/
def reduceModulus (q : BitVec 15) : Byte :=
  ([14, 13, 12, 11, 10, 9, 8].foldl (fun q i => if q.getLsbD i then q ^^^ (fieldModulus <<< (i - 8)) else q)
    q).setWidth 8

/-- GF(256) multiplication `a ⊗ b` (R92). -/
def gfmul (a b : Byte) : Byte := reduceModulus (polyProduct a b)

/-- GF(256) addition and subtraction `a ⊕ b` (R92). -/
def gfadd (a b : Byte) : Byte := a ^^^ b

/-- The primitive element α = 0x02 (R93). -/
def alpha : Byte := 0x02#8

/-- `α^i` (R93). -/
def alphaPow : Nat → Byte
  | 0 => 0x01#8
  | i + 1 => gfmul (alphaPow i) alpha

/-- Write `RESULT` and `RESULT_AUX` (R28). -/
def setResult (result aux : Word) (s : State) : State := { s with result := result, resultAux := aux }

/-- `GF_MUL a, b` (R94). -/
def execGfMul (a b : Byte) (s : State) : Host.Outcome State Fault Refusal :=
  finish (.gfMul a b) .ok (setResult ((gfmul a b).setWidth 32) 0#32) s

/-- `GF_EXP i` (R95). -/
def execGfExp (i : Byte) (s : State) : Host.Outcome State Fault Refusal :=
  finish (.gfExp i) .ok (setResult ((alphaPow (exponent i)).setWidth 32) 0#32) s

end Sys2Proof.Machine
end

