-- ==== Sys2Proof/Machine/Bch.lean ====
section
/-! DEFINITION. The BCH(15,5) and BCH(18,6) generators and the commands BCH_FORMAT and BCH_VERSION (43_bch.md). A word
is a polynomial over GF(2), bit k the coefficient of x^k (R150). -/

namespace Sys2Proof.Machine

/-- The BCH(15,5) generator, of degree 10 (R151). -/
def g15 : Nat := 0x537

/-- The BCH(18,6) generator, of degree 12 (R151). -/
def g18 : Nat := 0x1F25

/-- The format mask 101010000010010 (R152). -/
def formatMask : Nat := 0x5412

/-- The loop of `bch_rem`: the bits of x from `k + w - 1` down to `k` are cancelled with the generator (R151). -/
def bchReduce (g k : Nat) : Nat → Nat → Nat
  | 0, x => x
  | w + 1, x => bchReduce g k w (if x.testBit (k + w) then x ^^^ (g <<< w) else x)

/-- `bch_rem(v, w, g, k)`: the remainder of v(x)·x^k by g(x) over GF(2), v of w bits, g of degree k (R151). -/
def bchRem (v w g k : Nat) : Nat := bchReduce g k w (v <<< k) % 2 ^ k

/-- The unmasked format word: data ++ remainder (R152). -/
def formatRaw (e : BitVec 2) (m : MaskId) : Nat :=
  formatData e m <<< 10 ||| bchRem (formatData e m) 5 g15 10

/-- The version word: data ++ remainder (R153). -/
def versionWord (v : BitVec 6) : Nat := v.toNat <<< 12 ||| bchRem v.toNat 6 g18 12

/-- `BCH_FORMAT e, m` (R152). -/
def execBchFormat (e : BitVec 2) (m : MaskId) (s : State) : Host.Outcome State Fault Refusal :=
  finish (.bchFormat e m) .ok
    (setResult (BitVec.ofNat 32 (formatRaw e m ^^^ formatMask)) (BitVec.ofNat 32 (formatRaw e m))) s

/-- `BCH_VERSION v` (R153). -/
def execBchVersion (v : BitVec 6) (s : State) : Host.Outcome State Fault Refusal :=
  finish (.bchVersion v) .ok
    (setResult (BitVec.ofNat 32 (versionWord v)) (BitVec.ofNat 32 (versionWord v))) s

end Sys2Proof.Machine
end

