-- ==== Sys2Proof/Machine/Control.lean ====
section
/-! DEFINITION. The control commands NOP and SET_VERSION (44_control.md). -/

namespace Sys2Proof.Machine

/-- The effect of `SET_VERSION v` (R166). N is a function of VERSION (R29). -/
def setVersion (v : Byte) (s : State) : State := { s with version := v, selValid := false }

/-- `NOP` (R165). -/
def execNop (s : State) : Host.Outcome State Fault Refusal := finish .nop .ok (fun t => t) s

/-- `SET_VERSION v` (R166). -/
def execSetVersion (v : Byte) (s : State) : Host.Outcome State Fault Refusal :=
  finish (.setVersion v) (setVersionCode v s) (setVersion v) s

end Sys2Proof.Machine
end

