-- ==== Sys2Proof/Machine/MaskPenalty.lean ====
section
/-! DEFINITION. Mask patterns, the four penalty rules, and the commands PEN_SCORE, MASK_EVAL and MASK_APPLY
(42_mask_penalty.md). A matrix is the list of its rows; `true` is dark. -/

namespace Sys2Proof.Machine

/-- `mask_m(r, c)` (R120). -/
def maskFn (m : MaskId) (r c : Nat) : Bool :=
  match m.toNat with
  | 0 => (r + c) % 2 == 0
  | 1 => r % 2 == 0
  | 2 => c % 3 == 0
  | 3 => (r + c) % 3 == 0
  | 4 => (r / 2 + c / 3) % 2 == 0
  | 5 => r * c % 2 + r * c % 3 == 0
  | 6 => (r * c % 2 + r * c % 3) % 2 == 0
  | _ => ((r + c) % 2 + r * c % 3) % 2 == 0

/-- The colour of one cell under mask m: a data cell is flipped where the formula is true (R121). -/
def maskedDark (m : MaskId) (r c : Nat) (cell : QrCell) : Bool := cell.dark ^^ (!cell.func && maskFn m r c)

/-- Candidate m of the matrix of the given cells (R121). -/
def candidate (m : MaskId) (cells : List (List QrCell)) : List (List Bool) :=
  cells.mapIdx fun r row => row.mapIdx fun c cell => maskedDark m r c cell

/-- The columns of a matrix, as many as it has rows. -/
def columns (mat : List (List Bool)) : List (List Bool) :=
  (List.range mat.length).map fun c => mat.map fun row => row.getD c false

/-- The lines of a matrix: its rows and its columns (R122). -/
def matLines (mat : List (List Bool)) : List (List Bool) := mat ++ columns mat

/-- The lengths of the maximal runs of a line that begins inside a run of colour `b`, `k` modules of which are past. -/
def runsFrom (b : Bool) (k : Nat) : List Bool → List Nat
  | [] => [k]
  | x :: xs => if x = b then runsFrom b (k + 1) xs else k :: runsFrom x 1 xs

/-- The lengths of the maximal runs of a line, from its start (R123). -/
def runs : List Bool → List Nat
  | [] => []
  | x :: xs => runsFrom x 1 xs

/-- What a run of length ℓ adds (R123). -/
def runPenalty (len : Nat) : Nat := if 5 ≤ len then 3 + (len - 5) else 0

/-- Rule 1 (R123). -/
def penalty1 (mat : List (List Bool)) : Nat :=
  ((matLines mat).map fun line => ((runs line).map runPenalty).sum).sum

/-- The 2 × 2 windows of one colour in two adjacent rows. -/
def blocksInRows : List Bool → List Bool → Nat
  | a :: b :: top, c :: d :: bot =>
    (if a = b ∧ a = c ∧ a = d then 1 else 0) + blocksInRows (b :: top) (d :: bot)
  | _, _ => 0

/-- The 2 × 2 windows of one colour, overlapping ones included (R124). -/
def blockCount : List (List Bool) → Nat
  | top :: bot :: rest => blocksInRows top bot + blockCount (bot :: rest)
  | _ => 0

/-- Rule 2 (R124). -/
def penalty2 (mat : List (List Bool)) : Nat := 3 * blockCount mat

/-- PA = 10111010000 (R125). -/
def patternA : List Bool := [true, false, true, true, true, false, true, false, false, false, false]

/-- PB = 00001011101 (R125). -/
def patternB : List Bool := [false, false, false, false, true, false, true, true, true, false, true]

/-- How many windows of a line equal a pattern. -/
def windowCount (pat : List Bool) : List Bool → Nat
  | [] => 0
  | x :: xs => (if (x :: xs).take pat.length = pat then 1 else 0) + windowCount pat xs

/-- Rule 3 (R125). -/
def penalty3 (mat : List (List Bool)) : Nat :=
  40 * ((matLines mat).map fun line => windowCount patternA line + windowCount patternB line).sum

/-- The dark modules of a matrix. -/
def darkCount (mat : List (List Bool)) : Nat := (mat.map fun row => row.count true).sum

/-- Rule 4, with the percentage an exact rational (R126). -/
def penalty4 (mat : List (List Bool)) : Nat :=
  10 * ((20 * (darkCount mat : Int) - 10 * ((mat.length * mat.length : Nat) : Int)).natAbs
    / (mat.length * mat.length))

/-- The total of a candidate (R127). -/
def totalPenalty (mat : List (List Bool)) : Nat := penalty1 mat + penalty2 mat + penalty3 mat + penalty4 mat

/-- The four contributions as register words: entry k − 1 is rule k (R36, R128). -/
def penaltyWords (mat : List (List Bool)) : Vector Word 4 :=
  #v[BitVec.ofNat 32 (penalty1 mat), BitVec.ofNat 32 (penalty2 mat), BitVec.ofNat 32 (penalty3 mat),
     BitVec.ofNat 32 (penalty4 mat)]

/-- `score_into(m)` for the given active cells (R128). -/
def scoreInto (cells : List (List QrCell)) (m : MaskId) (s : State) : State :=
  { s with
    pen := s.pen.set m.toNat (penaltyWords (candidate m cells)) m.isLt
    score := s.score.set m.toNat (BitVec.ofNat 32 (totalPenalty (candidate m cells))) m.isLt }

/-- `SCORE[m]`. -/
def scoreAt (score : Vector Word 8) (m : MaskId) : Word := score[m.toNat]'m.isLt

/-- `PEN[m][k+1]`. -/
def penAt (pen : Vector (Vector Word 4) 8) (m : MaskId) (k : BitVec 2) : Word :=
  (pen[m.toNat]'m.isLt)[k.toNat]'k.isLt

/-- The smallest mask id whose score is at most every score (R131, R132). -/
def bestMask (score : Vector Word 8) : MaskId :=
  (allMasks.find? fun m => allMasks.all fun k => decide ((scoreAt score m).toNat ≤ (scoreAt score k).toNat)).getD
    0#3

/-- The effect of `PEN_SCORE m` (R130). -/
def penScore (m : MaskId) (s : State) : State := scoreInto s.active m s

/-- Score every candidate (R131). -/
def scoreAll (s : State) : State :=
  let cells := s.active
  allMasks.foldl (fun t m => scoreInto cells m t) s

/-- Select the best of the stored scores (R131). -/
def selectBest (s : State) : State :=
  { s with
    selMask := bestMask s.score
    selValid := true
    bestScore := scoreAt s.score (bestMask s.score) }

/-- The effect of `MASK_EVAL` (R131). -/
def maskEval (s : State) : State := selectBest (scoreAll s)

/-- The coordinates of the active region, row by row (R39). -/
def coords (n : Nat) : List (Nat × Nat) :=
  (List.range n).flatMap fun r => (List.range n).map fun c => (r, c)

/-- Flip one cell of the old matrix if it is a data cell where the formula is true (R133). The flipped cell is listed, so
it counts as written even if no Host write has reached it (DESIGN CHOICE, log entry 23). -/
def flipInto (m : MaskId) (old : State) (mem : Memory) (rc : Nat × Nat) : Memory :=
  let cell := old.cellAt rc.1 rc.2
  if cell.func = false ∧ maskFn m rc.1 rc.2 = true then
    mem.write (cellAddr rc.1 rc.2) { cell with dark := !cell.dark }.toByte
  else mem

/-- The effect of `MASK_APPLY m` (R133). -/
def maskApply (m : MaskId) (s : State) : State :=
  { s with mem := (coords s.side).foldl (flipInto m s) s.mem, selValid := false }

/-- `PEN_SCORE m` (R130). -/
def execPenScore (m : MaskId) (s : State) : Host.Outcome State Fault Refusal :=
  finish (.penScore m) (needsVersion s) (penScore m) s

/-- `MASK_EVAL` (R131). -/
def execMaskEval (s : State) : Host.Outcome State Fault Refusal :=
  finish .maskEval (needsVersion s) maskEval s

/-- `MASK_APPLY m` (R133). -/
def execMaskApply (m : MaskId) (s : State) : Host.Outcome State Fault Refusal :=
  finish (.maskApply m) (needsVersion s) (maskApply m) s

end Sys2Proof.Machine
end

