-- ==== Sys2Proof/Machine/ReedSolomon.lean ====
section
/-! DEFINITION. The Reed-Solomon encoder and the commands RS_SETUP, RS_CLEAR and RS_FEED (41_reed_solomon.md). -/

namespace Sys2Proof.Machine

/-- Multiply a polynomial, given by its coefficients from x⁰ up, by (x ⊕ a): the inner loop of `gen` (R101). -/
def mulLinear (c : List Byte) (a : Byte) : List Byte :=
  List.zipWith gfadd (0#8 :: c) (c.map (fun x => gfmul x a) ++ [0#8])

/-- `gen(n)`: the coefficients c[0..n] of (x − α⁰)(x − α¹)…(x − α^(n−1)), from x⁰ up (R101). -/
def genPoly (n : Nat) : List Byte := (List.range n).foldl (fun c k => mulLinear c (alphaPow k)) [0x01#8]

/-- `GEN` after `RS_SETUP n`: c[i] for i < n, and 0 above (R33, R104). -/
def genRegs (count n : Nat) : List Byte :=
  (List.range count).map fun i => if i < n then regAt (genPoly n) i else 0#8

/-- One step of the division, every right-hand side reading the values from before the step (R103). -/
def rsStep (n : Nat) (gen rem : List Byte) (d : Byte) : List Byte :=
  let fb := gfadd d (regAt rem 0)
  (List.range rem.length).map fun j =>
    if j + 1 < n then gfadd (regAt rem (j + 1)) (gfmul fb (regAt gen (n - 1 - j)))
    else if j + 1 = n then gfmul fb (regAt gen 0)
    else regAt rem j

/-- Every `REM[i]` is 0 and the feed count starts again (R104, R105). -/
def clearRem (s : State) : State :=
  { s with rem := List.replicate s.params.maxEc.toNat 0#8, feedCnt := 0#16 }

/-- The effect of `RS_SETUP n` (R104). -/
def rsSetup (n : Byte) (s : State) : State :=
  clearRem { s with gen := genRegs s.params.maxEc.toNat n.toNat, ecLen := n }

/-- The effect of `RS_FEED d` (R106). The 16-bit count wraps. -/
def rsFeed (d : Byte) (s : State) : State :=
  { s with rem := rsStep s.ecLen.toNat s.gen s.rem d, feedCnt := s.feedCnt + 1#16 }

/-- `RS_SETUP n` (R104). -/
def execRsSetup (n : Byte) (s : State) : Host.Outcome State Fault Refusal :=
  finish (.rsSetup n) (rsSetupCode n s) (rsSetup n) s

/-- `RS_CLEAR` (R105). -/
def execRsClear (s : State) : Host.Outcome State Fault Refusal :=
  finish .rsClear (needsEcLen s) clearRem s

/-- `RS_FEED d` (R106). -/
def execRsFeed (d : Byte) (s : State) : Host.Outcome State Fault Refusal :=
  finish (.rsFeed d) (needsEcLen s) (rsFeed d) s

end Sys2Proof.Machine
end

