-- ==== Sys2Proof/Machine/Dispatch.lean ====
section
/-! DEFINITION. The one dispatch: each command calls its own meaning (44_control.md R162). -/

namespace Sys2Proof.Machine

def exec (i : Instr) (s : State) : Host.Outcome State Fault Refusal :=
  match i with
  | .nop => Sys2Proof.Machine.execNop s
  | .setVersion v => Sys2Proof.Machine.execSetVersion v s
  | .gfMul a b => Sys2Proof.Machine.execGfMul a b s
  | .gfExp e => Sys2Proof.Machine.execGfExp e s
  | .rsSetup n => Sys2Proof.Machine.execRsSetup n s
  | .rsClear => Sys2Proof.Machine.execRsClear s
  | .rsFeed d => Sys2Proof.Machine.execRsFeed d s
  | .penScore m => Sys2Proof.Machine.execPenScore m s
  | .maskEval => Sys2Proof.Machine.execMaskEval s
  | .maskApply m => Sys2Proof.Machine.execMaskApply m s
  | .bchFormat e m => Sys2Proof.Machine.execBchFormat e m s
  | .bchVersion v => Sys2Proof.Machine.execBchVersion v s

end Sys2Proof.Machine
end

