-- ==== Sys2Proof/Machine/Bus.lean ====
section
/-! DEFINITION. The register interface: the address map, bus reads and bus writes (20_memory.md), with the bus errors
of 60_exceptions.md R181 and the hazards of a command in flight (70_reset_and_hazards.md R220, R221). -/

namespace Sys2Proof.Machine

/-- What a mapped address selects (R55). -/
inductive Target where
  | id
  | params
  | ctrl
  | status
  | irqStat
  | cmd
  | result
  | resultAux
  | cfg
  | feedCnt
  | sel
  | bestScore
  /-- `SCORE[m]`. -/
  | score (m : MaskId)
  /-- `PEN[m][k+1]`: `k` counts the penalty rules from 0. -/
  | pen (m : MaskId) (k : BitVec 2)
  /-- `GEN[i]`. -/
  | gen (i : Nat)
  /-- `REM[j]`. -/
  | rem (j : Nat)
  /-- `CELL(r,c)`. -/
  | cell (r c : Nat)
deriving DecidableEq, Repr

/-- The control and status registers of R55, in address order from 0x00000, four bytes each. -/
def fixedTargets : List Target :=
  [.id, .params, .ctrl, .status, .irqStat, .cmd, .result, .resultAux, .cfg, .feedCnt, .sel, .bestScore]

/-- The address map (R55, R56) at an aligned address; `none` is unmapped (R57) or misaligned (R53). -/
def decodeAddr (p : Params) (a : BusAddr) : Option Target :=
  let n := a.toNat
  if n % 4 ≠ 0 then none
  else if n < 0x30 then fixedTargets[n / 4]?
  else if 0x40 ≤ n ∧ n < 0x60 then some (.score (BitVec.ofNat 3 ((n - 0x40) / 4)))
  else if 0x60 ≤ n ∧ n < 0xE0 then
    some (.pen (BitVec.ofNat 3 ((n - 0x60) / 16)) (BitVec.ofNat 2 ((n - 0x60) / 4 % 4)))
  else if 0x100 ≤ n ∧ n < 0x100 + 4 * p.maxEc.toNat then some (.gen ((n - 0x100) / 4))
  else if 0x200 ≤ n ∧ n < 0x200 + 4 * p.maxEc.toNat then some (.rem ((n - 0x200) / 4))
  else if isCellAddr p.nmax n = true then some (.cell (rowOfAddr n) (colOfAddr n))
  else none

/-- The address that R55 gives a register or a cell. -/
def Target.addr : Target → Nat
  | .id => 0x00000
  | .params => 0x00004
  | .ctrl => 0x00008
  | .status => 0x0000C
  | .irqStat => 0x00010
  | .cmd => 0x00014
  | .result => 0x00018
  | .resultAux => 0x0001C
  | .cfg => 0x00020
  | .feedCnt => 0x00024
  | .sel => 0x00028
  | .bestScore => 0x0002C
  | .score m => 0x00040 + 4 * m.toNat
  | .pen m k => 0x00060 + 16 * m.toNat + 4 * k.toNat
  | .gen i => 0x00100 + 4 * i
  | .rem j => 0x00200 + 4 * j
  | .cell r c => cellAddr r c

/-- The registers and cells that exist in an implementation (R55). -/
def Target.present (p : Params) : Target → Bool
  | .gen i => decide (i < p.maxEc.toNat)
  | .rem j => decide (j < p.maxEc.toNat)
  | .cell r c => decide (r < p.nmax) && decide (c < p.nmax)
  | .id => true
  | .params => true
  | .ctrl => true
  | .status => true
  | .irqStat => true
  | .cmd => true
  | .result => true
  | .resultAux => true
  | .cfg => true
  | .feedCnt => true
  | .sel => true
  | .bestScore => true
  | .score _ => true
  | .pen _ _ => true

/-- The targets that a write is an error to: the RO registers (R55, R58). -/
def Target.readOnly : Target → Bool
  | .ctrl => false
  | .irqStat => false
  | .cmd => false
  | .cell _ _ => false
  | .id => true
  | .params => true
  | .status => true
  | .result => true
  | .resultAux => true
  | .cfg => true
  | .feedCnt => true
  | .sel => true
  | .bestScore => true
  | .score _ => true
  | .pen _ _ => true
  | .gen _ => true
  | .rem _ => true

/-- The targets whose value a read may not rely on while a command is in flight (R220). -/
def Target.hiddenWhileBusy : Target → Bool
  | .id => false
  | .params => false
  | .ctrl => false
  | .status => false
  | .irqStat => false
  | .cmd => false
  | .result => true
  | .resultAux => true
  | .cfg => true
  | .feedCnt => true
  | .sel => true
  | .bestScore => true
  | .score _ => true
  | .pen _ _ => true
  | .gen _ => true
  | .rem _ => true
  | .cell _ _ => true

/-- `CELL(r,c)` as a bus word: FUNC in bit 1, DARK in bit 0 (R37, R61). -/
def State.cellWord (s : State) (r c : Nat) : Word :=
  0#30 ++ BitVec.ofBool (s.cellAt r c).func ++ BitVec.ofBool (s.cellAt r c).dark

/-- The word that a register or a cell reads as (R59, R61). -/
def State.readTarget (s : State) : Target → Word
  | .id => idWord
  | .params => s.paramsWord
  | .ctrl => s.ctrlWord
  | .status => s.statusWord
  | .irqStat => s.irqStatWord
  | .cmd => 0#32
  | .result => s.result
  | .resultAux => s.resultAux
  | .cfg => s.cfgWord
  | .feedCnt => s.feedCntWord
  | .sel => s.selWord
  | .bestScore => s.bestScore
  | .score m => scoreAt s.score m
  | .pen m k => penAt s.pen m k
  | .gen i => (regAt s.gen i).setWidth 32
  | .rem j => (regAt s.rem j).setWidth 32
  | .cell r c => s.cellWord r c

/-- A bus read (R52): its answer, and the state after it. A read changes no state of the block (R59); the answer to a
read of a hidden register while busy is free, fresh for each read (R220). -/
def busRead (a : BusAddr) (s : State) : State × Response :=
  match decodeAddr s.params a with
  | none => (s, .error a)
  | some t =>
    if s.busy && t.hiddenWhileBusy then ({ s with draws := s.draws + 1 }, .data (Config.freeDraw s.draws))
    else (s, .data (s.readTarget t))

/-- A write to `CTRL`: a soft reset if bit 31 is 1, otherwise the two enables (R24, R212). -/
def writeCtrl (v : Word) (s : State) : State :=
  if v.getLsbD 31 then resetBlock s else { s with ieDone := v.getLsbD 0, ieErr := v.getLsbD 1 }

/-- A write to `IRQ_STAT` clears the bits written 1 (R26). -/
def writeIrqStat (v : Word) (s : State) : State :=
  { s with irqDone := s.irqDone && !v.getLsbD 0, irqErr := s.irqErr && !v.getLsbD 1 }

/-- A write to `CMD` puts the word in flight (R160). -/
def issue (w : Word) (s : State) : State := { s with inflight := some w }

/-- The cell that a word written to the matrix window stores (R60). -/
def cellOfWord (v : Word) : QrCell := { dark := v.getLsbD 0, func := v.getLsbD 1 }

/-- A write to a cell (R60). -/
def writeCell (r c : Nat) (v : Word) (s : State) : State :=
  { s with mem := s.mem.write (cellAddr r c) (cellOfWord v).toByte }

/-- The effect of an accepted write (R60, R62). A read-only register accepts none. -/
def writeTarget (t : Target) (v : Word) (s : State) : State :=
  match t with
  | .ctrl => writeCtrl v s
  | .irqStat => writeIrqStat v s
  | .cmd => issue v s
  | .cell r c => writeCell r c v s
  | .id => s
  | .params => s
  | .status => s
  | .result => s
  | .resultAux => s
  | .cfg => s
  | .feedCnt => s
  | .sel => s
  | .bestScore => s
  | .score _ => s
  | .pen _ _ => s
  | .gen _ => s
  | .rem _ => s

/-- `CTRL` and `IRQ_STAT` can be written while a command is in flight (R221). -/
def Target.writableWhileBusy (t : Target) : Bool := decide (t = .ctrl) || decide (t = .irqStat)

/-- A bus write (R52): every cause of R181 gives an ERROR and no state change. -/
def busWrite (a : BusAddr) (strobes : BitVec 4) (v : Word) (s : State) : State × Response :=
  match decodeAddr s.params a with
  | none => (s, .error a)
  | some t =>
    if strobes ≠ 0xF#4 then (s, .error a)
    else if t.readOnly then (s, .error a)
    else if s.busy && !t.writableWhileBusy then (s, .error a)
    else (writeTarget t v s, .written)

/-- The offset that a system address selects in the block's window, if it lies in it (R50). -/
def offsetOfSystem (sys : Nat) : Option BusAddr :=
  if Config.pBase ≤ sys ∧ sys < Config.pBase + 2 ^ 20 then some (BitVec.ofNat 20 (sys - Config.pBase)) else none

end Sys2Proof.Machine
end

