-- ==== Sys2Proof/Machine/HostProgram.lean ====
section
/-! DEFINITION. The Host: its program notation with the pseudo-instructions (30_encoding.md R78 to R80), and one step of
it, one bus transaction (00_scope.md R15). -/

namespace Sys2Proof.Machine

/-! ## The command syntax (R78) -/

/-- The mnemonics of R78 with their opcodes and the number of arguments each is written with. -/
def mnemonics : List (String × Byte × Nat) :=
  [("nop", 0x00#8, 0), ("set_version", 0x01#8, 1), ("gf_mul", 0x10#8, 2), ("gf_exp", 0x11#8, 1),
   ("rs_setup", 0x20#8, 1), ("rs_clear", 0x21#8, 0), ("rs_feed", 0x22#8, 1), ("pen_score", 0x30#8, 1),
   ("mask_eval", 0x31#8, 0), ("mask_apply", 0x32#8, 1), ("bch_format", 0x40#8, 2), ("bch_version", 0x41#8, 1)]

/-- The word that a command written alone denotes (R77, R78): an argument that is not written is 0. An argument outside
its range is still written into its field, so that the block can reject it (log entry 20). -/
def assembleCommand (name : String) (args : List Nat) : Option Word :=
  match mnemonics.find? (fun e => e.1 == name) with
  | none => none
  | some (_, op, arity) =>
    if args.length = arity ∧ args.all (fun x => decide (x < 256)) = true then
      some (commandWord op (BitVec.ofNat 8 (args.getD 0 0)) (BitVec.ofNat 8 (args.getD 1 0)))
    else none

/-! ## The program syntax (R79, R80) -/

/-- A line of a Host program, a pseudo-instruction included. Labels and temporaries are numbered. DESIGN CHOICE (log entry
24): R79 and R80 give the numbers of a line no range; ADDR is a 20-bit address, VALUE and MASK are 32-bit words, and f and
d of `cell` are one bit each, so a line with a larger number cannot be written. -/
inductive HostLine where
  /-- `wr ADDR, VALUE`. -/
  | wr (addr : BusAddr) (v : Word)
  /-- `rd ADDR -> tK`. -/
  | rd (addr : BusAddr) (t : Nat)
  /-- `label:`. -/
  | label (l : Nat)
  /-- `bnz tK, MASK, label`. -/
  | bnz (t : Nat) (mask : Word) (l : Nat)
  /-- `beq tK, VALUE, label`. -/
  | beq (t : Nat) (v : Word) (l : Nat)
  /-- `issue CMD`, with the command's word. -/
  | issue (w : Word)
  /-- `wait`. -/
  | wait
  /-- `do CMD`, with the command's word. -/
  | doCmd (w : Word)
  /-- `cell r, c, f, d`, with f and d one bit each (log entry 24). -/
  | cell (r c : Nat) (f d : Bool)
  /-- `ack`. -/
  | ack
  /-- `srst`. -/
  | srst
deriving DecidableEq, Repr

/-- The address of a register or a cell of R55, by its target, as a 20-bit bus address. DESIGN CHOICE (log entry 21): the
formula of a `CELL(r,c)` that names no cell of any implementation can exceed 20 bits (r ≥ 960, or a large c), of which R79
says nothing; its address is then taken modulo 2^20. -/
def Target.busAddr (t : Target) : BusAddr := BitVec.ofNat 20 t.addr

/-- How many operations a line becomes (R80). -/
def HostLine.size : HostLine → Nat
  | .label _ => 0
  | .wait => 2
  | .doCmd _ => 3
  | .wr _ _ => 1
  | .rd _ _ => 1
  | .bnz _ _ _ => 1
  | .beq _ _ _ => 1
  | .issue _ => 1
  | .cell _ _ _ _ => 1
  | .ack => 1
  | .srst => 1

/-- The position of a label: the number of operations before it (R79). DESIGN CHOICE (log entry 22): of a label written
twice, of which R79 says nothing, the first one counts. -/
def labelPos (l : Nat) : Nat → List HostLine → Option Nat
  | _, [] => none
  | pos, line :: rest => if line = .label l then some pos else labelPos l (pos + line.size) rest

/-- `wr ADDR, VALUE` with every strobe set (R79). -/
def wrOp (t : Target) (v : Word) : HostOp := .write t.busAddr 0xF#4 v

/-- The poll loop of `wait` placed at a position: `t0` is temporary 0 (R80). -/
def waitOps (pos : Nat) : List HostOp := [.read Target.status.busAddr 0, .bnz 0 0x1#32 pos]

/-- The operations of one line placed at a position; `none` if it names a label the program does not have. -/
def HostLine.expand (prog : List HostLine) (pos : Nat) : HostLine → Option (List HostOp)
  | .wr a v => some [.write a 0xF#4 v]
  | .rd a t => some [.read a t]
  | .label _ => some []
  | .bnz t m l => (labelPos l 0 prog).map fun target => [.bnz t m target]
  | .beq t v l => (labelPos l 0 prog).map fun target => [.beq t v target]
  | .issue w => some [wrOp .cmd w]
  | .wait => some (waitOps pos)
  | .doCmd w => some (wrOp .cmd w :: waitOps (pos + 1))
  | .cell r c f d => some [wrOp (.cell r c) (0#30 ++ BitVec.ofBool f ++ BitVec.ofBool d)]
  | .ack => some [wrOp .irqStat 0x3#32]
  | .srst => some [wrOp .ctrl 0x80000000#32]

/-- The operations of the lines from a position on. -/
def assembleFrom (prog : List HostLine) : Nat → List HostLine → Option (List HostOp)
  | _, [] => some []
  | pos, line :: rest =>
    match line.expand prog pos, assembleFrom prog (pos + line.size) rest with
    | some ops, some more => some (ops ++ more)
    | _, _ => none

/-- A Host program as operations, its labels resolved to positions (R79, R80). -/
def assemble (prog : List HostLine) : Option (List HostOp) := assembleFrom prog 0 prog

/-! ## The Host's step -/

/-- A Host temporary. One that nothing has written counts as 0 (log entry 7). -/
def State.temp (s : State) (t : Nat) : Word := (assocGet t s.temps).getD 0#32

/-- A read writes its temporary when the bus answers with data; after an ERROR the temporary is not written (R181). -/
def storeData (t : Nat) (r : Response) (s : State) : State :=
  match r with
  | .data v => { s with temps := assocSet t v s.temps }
  | .written => s
  | .error _ => s

/-- The position after an operation that is inside the Host, `bnz` or `beq`; a bus transaction is none (R79). -/
def HostOp.jump (s : State) (pos : Nat) : HostOp → Option Nat
  | .bnz t mask target => some (if s.temp t &&& mask ≠ 0#32 then target else pos + 1)
  | .beq t v target => some (if s.temp t = v then target else pos + 1)
  | .write _ _ _ => none
  | .read _ _ => none

/-- Follow at most `fuel` operations inside the Host from a position. -/
def State.follow (s : State) : Nat → Nat → Nat
  | 0, pos => pos
  | fuel + 1, pos =>
    match s.hostProg[pos]?.bind (HostOp.jump s pos) with
    | some next => s.follow fuel next
    | none => pos

/-- The position of the Host's next bus transaction: the operations inside the Host are followed first, since each Host
step is one bus read or write (R15). They write no temporary, so as many of them as the program has operations reach a
bus transaction or the end, or none ever does (log entry 15). -/
def State.busPos (s : State) : Nat := s.follow s.hostProg.length s.hostPc

/-- Record the block's answer to the bus transaction at a position and go on to the next operation. -/
def afterBus (pos : Nat) (x : State × Response) : State := { x.1 with resp := some x.2, hostPc := pos + 1 }

/-- One bus transaction of the Host, the operation at a position. After an ERROR the Host goes on with the next
operation (U12, log entry 6). An operation inside the Host is no step of its own: one stands at `busPos` only when the
Host goes round in them for ever, and then the Host has no step to take (log entry 15). -/
def hostOp (pos : Nat) (op : HostOp) (s : State) : State :=
  match op with
  | .write a strobes v => afterBus pos (busWrite a strobes v s)
  | .read a t => storeData t (busRead a s).2 (afterBus pos (busRead a s))
  | .bnz _ _ _ => s
  | .beq _ _ _ => s

/-- A step of the Host: its next bus transaction, or nothing when it has none left (R15, R219, log entry 17). -/
def hostStep (s : State) : State :=
  match s.hostProg[s.busPos]? with
  | none => s
  | some op => hostOp s.busPos op s

end Sys2Proof.Machine
end

