-- ==== Sys2Proof/Machine/Engine.lean ====
section
/-! DEFINITION. The Engine's step (44_control.md R161, R162), and which agent moves next (00_scope.md R15,
70_reset_and_hazards.md R218). -/

namespace Sys2Proof.Machine

/-- Execute the command word in flight (R162): a word the decoder rejects completes with its result code and no other
effect (R75, R164). -/
def execute (w : Word) (s : State) : Host.Outcome State Fault Refusal :=
  match decode w with
  | .instr i => exec i s
  | .illegalOp => .next (complete .illegalOp (opField w) s)
  | .badArg => .next (complete .badArg (opField w) s)

/-- The Engine's step: it has one exactly when a command is in flight (R161). -/
def engineStep (s : State) : Host.Outcome State Fault Refusal :=
  match s.inflight with
  | none => .next s
  | some w => execute w s

/-- The next move: the first of the schedule; when that is empty, the Engine's if a command is in flight, which is how
every accepted command completes (R218), otherwise the Host's. -/
def nextMove (s : State) : Move :=
  match s.schedule with
  | m :: _ => m
  | [] => if s.busy then .engine else .host

/-- Take the next move off the schedule. -/
def popMove (s : State) : State := { s with schedule := s.schedule.tail }

/-- Make a move. A move of an agent that has no step to take leaves the state as it is. -/
def makeMove (m : Move) (s : State) : Host.Outcome State Fault Refusal :=
  match m with
  | .host => .next (hostStep s)
  | .engine => engineStep s
  | .rst => .next (resetBlock s)

/-- Put a command word where the Engine takes its next command from, and let the Engine move next (log entry 3). -/
def loadCommand (w : Word) (s : State) : State := { s with inflight := some w, schedule := [] }

end Sys2Proof.Machine
end

