-- ==== Sys2Proof/Machine/Step.lean ====
section
/-! DEFINITION. One step of the machine: one move of one agent (20_memory.md R63, R64). -/

namespace Sys2Proof.Machine

/-- One step: the next move is made. -/
def step (s : State) : Host.Outcome State Fault Refusal := makeMove (nextMove s) (popMove s)

/-- The state with the `nbits`-bit command `w` in flight and the Engine to move next: `INFLIGHT` is where the Engine
takes a command from, since the block fetches nothing (R21, R44, R160). -/
def State.withFetchWord (s : State) (nbits w : Nat) : State := loadCommand (BitVec.ofNat 32 (w % 2 ^ nbits)) s

end Sys2Proof.Machine
end

