-- ==== Sys2Proof/Reference.lean ====
section
/-! DEFINITION. The spec's mathematics in a second, independent form that claims compare the machine with: polynomials
over GF(256) and their long division (41_reed_solomon.md R100 to R110), polynomials over GF(2) (43_bch.md R155), and
the penalty rules by row and column index (42_mask_penalty.md R121 to R126). -/

namespace Sys2Proof.Reference

open Sys2Proof.Machine

/-! ## Polynomials over GF(256), coefficients from the highest degree down -/

/-- The value of a polynomial at a point (R110). -/
def polyEval (c : List Byte) (x : Byte) : Byte := c.foldl (fun acc d => gfadd (gfmul acc x) d) 0#8

/-- Subtract `lead` times the lower coefficients `g` from the front of a polynomial. -/
def subtractScaled (lead : Byte) : List Byte → List Byte → List Byte
  | g :: gs, r :: rs => gfadd r (gfmul lead g) :: subtractScaled lead gs rs
  | [], rs => rs
  | _ :: _, [] => []

/-- One step of long division by a monic polynomial whose lower coefficients are `g`: the leading term is cancelled. -/
def divideStep (g : List Byte) : List Byte → List Byte
  | lead :: rest => subtractScaled lead g rest
  | [] => []

/-- `k` steps of long division. -/
def longDivide (g : List Byte) : Nat → List Byte → List Byte
  | 0, p => p
  | k + 1, p => longDivide g k (divideStep g p)

/-- The lower coefficients of the generator of degree n, from x^(n−1) down to x⁰ (R101). -/
def generatorLow (n : Nat) : List Byte := ((genPoly n).take n).reverse

/-- `(m(x)·xⁿ) mod g(x)` by long division (R100): the data codewords, then n zeros, divided as many times as there are
codewords. -/
def remainderOf (n : Nat) (data : List Byte) : List Byte :=
  longDivide (generatorLow n) data.length (data ++ List.replicate n 0#8)

/-! ## Polynomials over GF(2) -/

/-- The product of two polynomials over GF(2), the first of at most `w` coefficients. -/
def gf2Product (w q g : Nat) : Nat := (List.range w).foldl (fun acc i => if q.testBit i then acc ^^^ (g <<< i) else acc) 0

/-! ## Matrices by index -/

/-- `M(r,c)`. -/
def at2 (mat : List (List Bool)) (r c : Nat) : Bool := (mat.getD r []).getD c false

/-- An N × N matrix. -/
def square (n : Nat) (mat : List (List Bool)) : Prop := mat.length = n ∧ ∀ row ∈ mat, row.length = n

/-- `line[i .. i+len−1]` is a maximal run of a line of `n` modules (R123). -/
abbrev maximalRun (n : Nat) (line : Nat → Bool) (i len : Nat) : Prop :=
  0 < len ∧ i + len ≤ n ∧ (∀ j < len, line (i + j) = line i) ∧ (i = 0 ∨ line (i - 1) ≠ line i)
    ∧ (i + len = n ∨ line (i + len) ≠ line i)

/-- What rule 1 adds for one line (R123). -/
def runsOfLine (n : Nat) (line : Nat → Bool) : Nat :=
  ∑ i ∈ Finset.range n, ∑ len ∈ Finset.range (n + 1), if maximalRun n line i len ∧ 5 ≤ len then 3 + (len - 5) else 0

/-- `line[i .. i+10]` equals an 11-module pattern (R125). -/
abbrev windowAt (pat : List Bool) (line : Nat → Bool) (i : Nat) : Prop := ∀ k < 11, line (i + k) = pat.getD k false

/-- How many windows of one line rule 3 counts (R125). -/
def windowsOfLine (n : Nat) (line : Nat → Bool) : Nat :=
  ∑ i ∈ Finset.range (n - 10), ((if windowAt patternA line i then 1 else 0) + (if windowAt patternB line i then 1 else 0))

/-- A sum over the 2N lines of a matrix: its rows and its columns (R122). -/
def overLines (n : Nat) (mat : List (List Bool)) (f : (Nat → Bool) → Nat) : Nat :=
  (∑ r ∈ Finset.range n, f (fun c => at2 mat r c)) + ∑ c ∈ Finset.range n, f (fun r => at2 mat r c)

/-- The 2 × 2 window at (r, c) has one colour (R124). -/
abbrev oneColour (mat : List (List Bool)) (r c : Nat) : Prop :=
  at2 mat r c = at2 mat r (c + 1) ∧ at2 mat r c = at2 mat (r + 1) c ∧ at2 mat r c = at2 mat (r + 1) (c + 1)

/-- How many one-colour 2 × 2 windows an N × N matrix has (R124). -/
def blocksOf (n : Nat) (mat : List (List Bool)) : Nat :=
  ∑ r ∈ Finset.range (n - 1), ∑ c ∈ Finset.range (n - 1), if oneColour mat r c then 1 else 0

/-- The dark modules of an N × N matrix (R126). -/
def darkOf (n : Nat) (mat : List (List Bool)) : Nat :=
  ∑ r ∈ Finset.range n, ∑ c ∈ Finset.range n, if at2 mat r c then 1 else 0

end Sys2Proof.Reference
end

