-- ==== Sys2Proof/WellFormed.lean ====
section
/-! DEFINITION. Which commands are legal for an implementation (30_encoding.md R73, R74): the range limits that the
row's mask cannot express. The other limits (RSV = 0, unused arguments 0, `m ≤ 7`, `e ≤ 3`, `v ≤ 63`) are the operand
types of `Instr`, and the decoder rejects a word that breaks one. -/

namespace Sys2Proof

/-- The argument ranges of R73 that depend on `P_MAX_EC` and `P_MAX_VERSION`. -/
def Instr.wf (p : Params) : Instr → Bool
  | .setVersion v => 1 ≤ v.toNat && v.toNat ≤ p.maxVersion.toNat
  | .rsSetup n => 1 ≤ n.toNat && n.toNat ≤ p.maxEc.toNat
  | .nop => true
  | .gfMul _ _ => true
  | .gfExp _ => true
  | .rsClear => true
  | .rsFeed _ => true
  | .penScore _ => true
  | .maskEval => true
  | .maskApply _ => true
  | .bchFormat _ _ => true
  | .bchVersion _ => true

end Sys2Proof
end

