-- ==== Sys2Proof/Safety.lean ====
section
/-! DEFINITION. The terms that claims about runs use: the invariant of the machine, what a command may leave
unchanged, the end of a run (70_reset_and_hazards.md R219), and the hazards a Host must respect (R220 to R224). -/

namespace Sys2Proof.Machine

/-! ## The invariant -/

/-- `PEN[m][1] + PEN[m][2] + PEN[m][3] + PEN[m][4]` as a register word (R36). -/
def penSum (pen : Vector (Vector Word 4) 8) (m : MaskId) : Word :=
  penAt pen m 0#2 + penAt pen m 1#2 + penAt pen m 2#2 + penAt pen m 3#2

/-- What holds of every state the machine can reach. -/
structure State.Inv (s : State) : Prop where
  /-- The parameters lie in their ranges (R7, R8). -/
  params_wf : s.params.wf = true
  /-- The matrix RAM is in canonical form and lists only cells that exist (R37, R55). -/
  mem_wf : Memory.wf s.params.nmax s.mem = true
  /-- There are `P_MAX_EC` registers `REM` (R34). -/
  rem_length : s.rem.length = s.params.maxEc.toNat
  /-- `CFG.EC_LEN` has a legal value (R29). -/
  ecLen_le : s.ecLen.toNat ≤ s.params.maxEc.toNat
  /-- `CFG.VERSION` has a legal value (R29). -/
  version_le : s.version.toNat ≤ s.params.maxVersion.toNat
  /-- `GEN` holds the generator of degree `CFG.EC_LEN`, and 0 above (R33). -/
  gen_eq : s.gen = genRegs s.params.maxEc.toNat s.ecLen.toNat
  /-- `REM[j]` is 0 for j ≥ `CFG.EC_LEN` (R34). -/
  rem_above : ∀ j, s.ecLen.toNat ≤ j → regAt s.rem j = 0#8
  /-- Nothing has been fed while the encoder is not configured (R30, R183). -/
  feed_unconfigured : s.ecLen = 0#8 → s.feedCnt = 0#16
  /-- `SCORE[m]` is the sum of its four contributions (R36). -/
  score_sum : ∀ m : MaskId, scoreAt s.score m = penSum s.pen m
  /-- There is no valid selection while no version is set (R31, R166). -/
  sel_configured : s.selValid = true → s.version ≠ 0#8
  /-- The Host's temporaries are listed in rising order. -/
  temps_rise : keysRise s.temps = true

/-! ## What stays the same -/

/-- The parameters and the interrupt enables are the same. -/
def SameControl (s t : State) : Prop := t.params = s.params ∧ t.ieDone = s.ieDone ∧ t.ieErr = s.ieErr

/-- `RESULT` and `RESULT_AUX` are the same. -/
def SameResults (s t : State) : Prop := t.result = s.result ∧ t.resultAux = s.resultAux

/-- The Reed-Solomon registers `CFG.EC_LEN`, `FEED_CNT`, `GEN` and `REM` are the same. -/
def SameEncoder (s t : State) : Prop :=
  t.ecLen = s.ecLen ∧ t.feedCnt = s.feedCnt ∧ t.gen = s.gen ∧ t.rem = s.rem

/-- `SEL` and `BEST_SCORE` are the same. -/
def SameSelection (s t : State) : Prop :=
  t.selMask = s.selMask ∧ t.selValid = s.selValid ∧ t.bestScore = s.bestScore

/-- Every `SCORE[m]` and `PEN[m][k]` is the same. -/
def SameScores (s t : State) : Prop := t.score = s.score ∧ t.pen = s.pen

/-- Every byte of the matrix RAM reads the same, written or not. -/
def SameCells (s t : State) : Prop := ∀ addr, t.byteAt addr = s.byteAt addr

/-- The two agents' own data is the same: no command touches it. -/
def SameAgents (s t : State) : Prop :=
  t.resets = s.resets ∧ t.draws = s.draws ∧ t.schedule = s.schedule ∧ t.hostProg = s.hostProg ∧ t.hostPc = s.hostPc
    ∧ t.temps = s.temps ∧ t.resp = s.resp

/-- The completion record is the same. -/
def SameRecord (s t : State) : Prop :=
  t.err = s.err ∧ t.lastOp = s.lastOp ∧ t.irqDone = s.irqDone ∧ t.irqErr = s.irqErr

/-- `t` bears the completion record of a command with opcode `op` and result code `code` (R163). -/
def Completed (code : ResultCode) (op : Byte) (s t : State) : Prop :=
  t.err = code ∧ t.lastOp = op ∧ t.irqDone = true ∧ t.irqErr = (s.irqErr || decide (code ≠ .ok)) ∧ t.inflight = none

/-- `t` is `s` but for the completion record (R164). -/
def OnlyCompleted (code : ResultCode) (op : Byte) (s t : State) : Prop :=
  Completed code op s t ∧ SameControl s t ∧ SameResults s t ∧ SameEncoder s t ∧ t.version = s.version
    ∧ SameSelection s t ∧ SameScores s t ∧ t.mem = s.mem ∧ SameCells s t ∧ SameAgents s t

/-- The result codes of the words with a listed opcode (R183, R184): BAD_ARG exactly when `bad` holds of the word,
NOT_CONFIGURED exactly when it does not and `unconfigured` holds, and never ILLEGAL_OP. -/
def CodesOf (op : Byte) (bad : Word → Prop) (unconfigured : Prop) (s : State) : Prop :=
  ∀ w, opField w = op → check w s ≠ .illegalOp ∧ (check w s = .badArg ↔ bad w)
    ∧ (check w s = .notConfigured ↔ ¬ bad w ∧ unconfigured)

/-- Every register of the block has its reset value, and no cell is written (R46). -/
def ResetValues (t : State) : Prop :=
  t.ieDone = false ∧ t.ieErr = false ∧ t.err = .ok ∧ t.lastOp = 0#8 ∧ t.irqDone = false ∧ t.irqErr = false
    ∧ t.inflight = none ∧ t.result = 0#32 ∧ t.resultAux = 0#32 ∧ t.ecLen = 0#8 ∧ t.version = 0#8 ∧ t.feedCnt = 0#16
    ∧ t.selMask = 0#3 ∧ t.selValid = false ∧ t.bestScore = 0#32 ∧ (∀ i, regAt t.gen i = 0#8)
    ∧ (∀ j, regAt t.rem j = 0#8) ∧ (∀ m, scoreAt t.score m = 0#32)
    ∧ (∀ (m : MaskId) (k : BitVec 2), penAt t.pen m k = 0#32) ∧ ∀ r c, t.written r c = false

/-! ## Runs -/

/-- Execute commands one after another, each as its own Engine step. -/
def execAll : List Instr → State → Host.Outcome State Fault Refusal
  | [], s => .next s
  | i :: rest, s =>
    match exec i s with
    | .next t => execAll rest t
    | .fault f => .fault f
    | .refused r => .refused r

/-- From one position the operations inside the Host, `bnz` and `beq`, lead to another, any number of them (R79). -/
inductive Jumps (s : State) : Nat → Nat → Prop where
  | here (pos : Nat) : Jumps s pos pos
  | bnz {pos t target dest : Nat} {mask : Word} (h : s.hostProg[pos]? = some (.bnz t mask target))
      (rest : Jumps s (if s.temp t &&& mask ≠ 0#32 then target else pos + 1) dest) : Jumps s pos dest
  | beq {pos t target dest : Nat} {v : Word} (h : s.hostProg[pos]? = some (.beq t v target))
      (rest : Jumps s (if s.temp t = v then target else pos + 1) dest) : Jumps s pos dest

/-- A run has ended: the Host has no further operation, those inside the Host followed, and nothing is in flight
(R219). -/
def State.ended (s : State) : Prop := s.hostProg.length ≤ s.busPos ∧ s.inflight = none

/-! ## Hazards -/

/-- Every cell of the active region has been written since the last reset (R224). -/
def State.regionLoaded (s : State) : Prop := ∀ r c, r < s.side → c < s.side → s.written r c = true

/-- A read of this target gives a value the spec states: it is not hidden by a command in flight (R220), and it is not
an unwritten cell (R46, R61). -/
def readStated (s : State) (t : Target) : Prop :=
  (s.busy = true → t.hiddenWhileBusy = false) ∧ ∀ r c, t = .cell r c → s.written r c = true

/-- A command gives a value the spec states: one that reads the matrix finds the active region loaded (R224). -/
def commandStated (s : State) (w : Word) : Prop :=
  opField w = 0x30#8 ∨ opField w = 0x31#8 ∨ opField w = 0x32#8 → s.regionLoaded

end Sys2Proof.Machine
end

