-- ==== Sys2Proof/Certificates/Slice0/Obligations.lean ====
section
/-! DEFINITION. The statements about the model, for the provers. Each docstring names the rules of spec/ it formalises.
A command's own statement says: its encoding, its result codes, that it completes and with what state, the corner
cases and the example of its rule, and everything it leaves unchanged. -/

open Sys2Proof Sys2Proof.Machine Sys2Proof.Reference

/-! ## The commands -/

/-- R165: `NOP` completes and changes only the completion record; with an argument it completes with BAD_ARG and sets
`IRQ_STAT.ERR`. -/
def Obligations.NopChangesOnlyTheRecord : Prop :=
  encode .nop = 0x00000000#32 ∧
  ∀ s : State,
    CodesOf 0x00#8 (fun w => argA w ≠ 0#8 ∨ argB w ≠ 0#8 ∨ rsvField w ≠ 0#8) False s ∧
    (∃ t, execute 0x00000100#32 s = .next t ∧ t.irqErr = true ∧ OnlyCompleted .badArg 0x00#8 s t) ∧
    ∃ t, exec .nop s = .next t ∧ OnlyCompleted .ok 0x00#8 s t

/-- R166, R9: `SET_VERSION v` with 1 ≤ v ≤ P_MAX_VERSION sets VERSION and N = 17 + 4·v and clears SEL_VALID; otherwise
it completes with BAD_ARG and keeps them. -/
def Obligations.SetVersionSelectsTheSymbolSize : Prop :=
  (∀ v : Byte, encode (.setVersion v) = v.setWidth 32 <<< 8 ||| 0x01#32) ∧
  ∀ (v : Byte) (s : State),
    CodesOf 0x01#8 (fun w => (argA w).toNat = 0 ∨ s.params.maxVersion.toNat < (argA w).toNat ∨ argB w ≠ 0#8
      ∨ rsvField w ≠ 0#8) False s ∧
    (1 ≤ v.toNat → v.toNat ≤ s.params.maxVersion.toNat →
      ∃ t, exec (.setVersion v) s = .next t ∧ Completed .ok 0x01#8 s t
        ∧ t.version = v ∧ t.side = 17 + 4 * v.toNat ∧ t.verReady = true ∧ t.selValid = false
        ∧ (v = 1#8 → s.ecLen = 0#8 → t.cfgWord = 0x00150100#32)
        ∧ SameControl s t ∧ SameResults s t ∧ SameEncoder s t ∧ t.selMask = s.selMask
        ∧ t.bestScore = s.bestScore ∧ SameScores s t ∧ SameCells s t ∧ SameAgents s t) ∧
    (v.toNat = 0 ∨ s.params.maxVersion.toNat < v.toNat →
      ∃ t, exec (.setVersion v) s = .next t ∧ OnlyCompleted .badArg 0x01#8 s t)

/-- R94: `GF_MUL a, b` leaves a ⊗ b in RESULT and 0 in RESULT_AUX. -/
def Obligations.GfMulWritesTheProduct : Prop :=
  (∀ a b : Byte, encode (.gfMul a b) = b.setWidth 32 <<< 16 ||| a.setWidth 32 <<< 8 ||| 0x10#32) ∧
  (∀ a b : Byte, gfmul a 0#8 = 0#8 ∧ gfmul 0#8 b = 0#8 ∧ gfmul a 1#8 = a ∧ gfmul a b = gfmul b a) ∧
  gfmul 0x53#8 0xCA#8 = 0x8F#8 ∧
  ∀ (a b : Byte) (s : State),
    CodesOf 0x10#8 (fun w => rsvField w ≠ 0#8) False s ∧
    ∃ t, exec (.gfMul a b) s = .next t ∧ Completed .ok 0x10#8 s t
      ∧ t.result = (gfmul a b).setWidth 32 ∧ t.resultAux = 0#32
      ∧ SameControl s t ∧ SameEncoder s t ∧ t.version = s.version ∧ SameSelection s t ∧ SameScores s t
      ∧ SameCells s t ∧ SameAgents s t

/-- R95: `GF_EXP i` leaves α^(i mod 255) in RESULT and 0 in RESULT_AUX. -/
def Obligations.GfExpWritesThePower : Prop :=
  (∀ i : Byte, encode (.gfExp i) = i.setWidth 32 <<< 8 ||| 0x11#32) ∧
  ∀ (i : Byte) (s : State),
    CodesOf 0x11#8 (fun w => argB w ≠ 0#8 ∨ rsvField w ≠ 0#8) False s ∧
    ∃ t, exec (.gfExp i) s = .next t ∧ Completed .ok 0x11#8 s t
      ∧ t.result = (alphaPow (i.toNat % 255)).setWidth 32 ∧ t.resultAux = 0#32
      ∧ (i = 0#8 ∨ i = 255#8 → t.result = 0x01#32) ∧ (i = 8#8 → t.result = 0x1D#32) ∧ t.result ≠ 0#32
      ∧ SameControl s t ∧ SameEncoder s t ∧ t.version = s.version ∧ SameSelection s t ∧ SameScores s t
      ∧ SameCells s t ∧ SameAgents s t

/-- R104: `RS_SETUP n` with 1 ≤ n ≤ P_MAX_EC loads the generator, clears the remainder and sets EC_LEN; otherwise it
completes with BAD_ARG and keeps them. -/
def Obligations.RsSetupLoadsTheGenerator : Prop :=
  (∀ n : Byte, encode (.rsSetup n) = n.setWidth 32 <<< 8 ||| 0x20#32) ∧
  (genPoly 1).take 1 = [0x01#8] ∧
  (genPoly 7).take 7 = [0x75#8, 0x44#8, 0x0B#8, 0xA4#8, 0x9A#8, 0x7A#8, 0x7F#8] ∧
  ∀ (n : Byte) (s : State),
    CodesOf 0x20#8 (fun w => (argA w).toNat = 0 ∨ s.params.maxEc.toNat < (argA w).toNat ∨ argB w ≠ 0#8
      ∨ rsvField w ≠ 0#8) False s ∧
    (1 ≤ n.toNat → n.toNat ≤ s.params.maxEc.toNat →
      ∃ t, exec (.rsSetup n) s = .next t ∧ Completed .ok 0x20#8 s t
        ∧ t.gen.length = s.params.maxEc.toNat ∧ t.rem.length = s.params.maxEc.toNat
        ∧ (∀ i, i < n.toNat → regAt t.gen i = (genPoly n.toNat).getD i 0#8)
        ∧ (∀ i, n.toNat ≤ i → regAt t.gen i = 0#8) ∧ (∀ j, regAt t.rem j = 0#8)
        ∧ t.ecLen = n ∧ t.feedCnt = 0#16 ∧ t.rsReady = true
        ∧ SameControl s t ∧ SameResults s t ∧ t.version = s.version ∧ SameSelection s t ∧ SameScores s t
        ∧ SameCells s t ∧ SameAgents s t) ∧
    (n.toNat = 0 ∨ s.params.maxEc.toNat < n.toNat →
      ∃ t, exec (.rsSetup n) s = .next t ∧ OnlyCompleted .badArg 0x20#8 s t)

/-- R105: `RS_CLEAR` clears the remainder and the feed count, and keeps the generator. -/
def Obligations.RsClearStartsANewBlock : Prop :=
  encode .rsClear = 0x00000021#32 ∧
  ∀ s : State,
    CodesOf 0x21#8 (fun w => argA w ≠ 0#8 ∨ argB w ≠ 0#8 ∨ rsvField w ≠ 0#8) (s.ecLen = 0#8) s ∧
    (s.ecLen ≠ 0#8 →
      ∃ t, exec .rsClear s = .next t ∧ Completed .ok 0x21#8 s t
        ∧ (∀ j, regAt t.rem j = 0#8) ∧ t.rem.length = s.params.maxEc.toNat ∧ t.feedCnt = 0#16
        ∧ t.gen = s.gen ∧ t.ecLen = s.ecLen
        ∧ (s.rem = List.replicate s.params.maxEc.toNat 0#8 → s.feedCnt = 0#16 → SameEncoder s t)
        ∧ SameControl s t ∧ SameResults s t ∧ t.version = s.version ∧ SameSelection s t ∧ SameScores s t
        ∧ SameCells s t ∧ SameAgents s t) ∧
    (s.ecLen = 0#8 → ∃ t, exec .rsClear s = .next t ∧ OnlyCompleted .notConfigured 0x21#8 s t)

/-- R106, R103: `RS_FEED d` makes one division step, every right-hand side reading the old values, and counts. -/
def Obligations.RsFeedDividesOneCodeword : Prop :=
  (∀ d : Byte, encode (.rsFeed d) = d.setWidth 32 <<< 8 ||| 0x22#32) ∧
  ∀ (d : Byte) (s : State), s.Inv →
    CodesOf 0x22#8 (fun w => argB w ≠ 0#8 ∨ rsvField w ≠ 0#8) (s.ecLen = 0#8) s ∧
    (s.ecLen ≠ 0#8 →
      ∃ t, exec (.rsFeed d) s = .next t ∧ Completed .ok 0x22#8 s t
        ∧ (∀ j, j + 1 < s.ecLen.toNat → regAt t.rem j
            = regAt s.rem (j + 1) ^^^ gfmul (d ^^^ regAt s.rem 0) (regAt s.gen (s.ecLen.toNat - 1 - j)))
        ∧ regAt t.rem (s.ecLen.toNat - 1) = gfmul (d ^^^ regAt s.rem 0) (regAt s.gen 0)
        ∧ (∀ j, s.ecLen.toNat ≤ j → regAt t.rem j = 0#8) ∧ t.rem.length = s.params.maxEc.toNat
        ∧ t.feedCnt.toNat = (s.feedCnt.toNat + 1) % 65536
        ∧ (d = 0#8 → (∀ j, regAt s.rem j = 0#8) → ∀ j, regAt t.rem j = 0#8)
        ∧ (d = 1#8 → (∀ j, regAt s.rem j = 0#8) →
            ∀ j, j < s.ecLen.toNat → regAt t.rem j = regAt s.gen (s.ecLen.toNat - 1 - j))
        ∧ (s.ecLen = 1#8 → regAt t.rem 0 = d ^^^ regAt s.rem 0)
        ∧ t.gen = s.gen ∧ t.ecLen = s.ecLen
        ∧ SameControl s t ∧ SameResults s t ∧ t.version = s.version ∧ SameSelection s t ∧ SameScores s t
        ∧ SameCells s t ∧ SameAgents s t) ∧
    (s.ecLen = 0#8 → ∃ t, exec (.rsFeed d) s = .next t ∧ OnlyCompleted .notConfigured 0x22#8 s t)

/-- R130, R128: `PEN_SCORE m` writes the four rules of candidate m and their sum, and no other mask's. -/
def Obligations.PenScoreScoresOneCandidate : Prop :=
  (∀ m : MaskId, encode (.penScore m) = m.setWidth 32 <<< 8 ||| 0x30#32) ∧
  ∀ (m : MaskId) (s : State),
    CodesOf 0x30#8 (fun w => 7 < (argA w).toNat ∨ argB w ≠ 0#8 ∨ rsvField w ≠ 0#8) (s.version = 0#8) s ∧
    (s.version ≠ 0#8 →
      ∃ t, exec (.penScore m) s = .next t ∧ Completed .ok 0x30#8 s t
        ∧ penAt t.pen m 0#2 = BitVec.ofNat 32 (penalty1 (candidate m s.active))
        ∧ penAt t.pen m 1#2 = BitVec.ofNat 32 (penalty2 (candidate m s.active))
        ∧ penAt t.pen m 2#2 = BitVec.ofNat 32 (penalty3 (candidate m s.active))
        ∧ penAt t.pen m 3#2 = BitVec.ofNat 32 (penalty4 (candidate m s.active))
        ∧ scoreAt t.score m = BitVec.ofNat 32 (penalty1 (candidate m s.active) + penalty2 (candidate m s.active)
            + penalty3 (candidate m s.active) + penalty4 (candidate m s.active))
        ∧ (∀ k, k ≠ m → scoreAt t.score k = scoreAt s.score k ∧ ∀ i, penAt t.pen k i = penAt s.pen k i)
        ∧ ((∀ r c, r < s.side → c < s.side → (s.cellAt r c).func = true) →
            ∀ k, candidate k s.active = candidate m s.active)
        ∧ SameControl s t ∧ SameResults s t ∧ SameEncoder s t ∧ t.version = s.version ∧ SameSelection s t
        ∧ SameCells s t ∧ SameAgents s t) ∧
    (s.version = 0#8 → ∃ t, exec (.penScore m) s = .next t ∧ OnlyCompleted .notConfigured 0x30#8 s t)

/-- R131, R132: `MASK_EVAL` scores every candidate and selects the one with the least score, the smallest id among
equals. -/
def Obligations.MaskEvalSelectsTheLeastScore : Prop :=
  encode .maskEval = 0x00000031#32 ∧
  ∀ s : State,
    CodesOf 0x31#8 (fun w => argA w ≠ 0#8 ∨ argB w ≠ 0#8 ∨ rsvField w ≠ 0#8) (s.version = 0#8) s ∧
    (s.version ≠ 0#8 →
      ∃ t, exec .maskEval s = .next t ∧ Completed .ok 0x31#8 s t
        ∧ (∀ m, penAt t.pen m 0#2 = BitVec.ofNat 32 (penalty1 (candidate m s.active))
            ∧ penAt t.pen m 1#2 = BitVec.ofNat 32 (penalty2 (candidate m s.active))
            ∧ penAt t.pen m 2#2 = BitVec.ofNat 32 (penalty3 (candidate m s.active))
            ∧ penAt t.pen m 3#2 = BitVec.ofNat 32 (penalty4 (candidate m s.active))
            ∧ scoreAt t.score m = BitVec.ofNat 32 (penalty1 (candidate m s.active) + penalty2 (candidate m s.active)
                + penalty3 (candidate m s.active) + penalty4 (candidate m s.active)))
        ∧ t.selValid = true ∧ t.bestScore = scoreAt t.score t.selMask
        ∧ (∀ k, (scoreAt t.score t.selMask).toNat ≤ (scoreAt t.score k).toNat)
        ∧ (∀ k, k.toNat < t.selMask.toNat → (scoreAt t.score t.selMask).toNat < (scoreAt t.score k).toNat)
        ∧ SameControl s t ∧ SameResults s t ∧ SameEncoder s t ∧ t.version = s.version ∧ SameCells s t
        ∧ SameAgents s t) ∧
    (s.version = 0#8 → ∃ t, exec .maskEval s = .next t ∧ OnlyCompleted .notConfigured 0x31#8 s t)

/-- R133: `MASK_APPLY m` leaves candidate m in the active region, flips no function cell and no cell outside the region,
and clears SEL_VALID; applied twice it restores the matrix. -/
def Obligations.MaskApplyWritesTheCandidate : Prop :=
  (∀ m : MaskId, encode (.maskApply m) = m.setWidth 32 <<< 8 ||| 0x32#32) ∧
  ∀ (m : MaskId) (s : State), s.Inv →
    CodesOf 0x32#8 (fun w => 7 < (argA w).toNat ∨ argB w ≠ 0#8 ∨ rsvField w ≠ 0#8) (s.version = 0#8) s ∧
    (s.version ≠ 0#8 →
      ∃ t, exec (.maskApply m) s = .next t ∧ Completed .ok 0x32#8 s t
        ∧ (∀ r c, r < s.side → c < s.side →
            (t.cellAt r c).dark = ((s.cellAt r c).dark ^^ (!(s.cellAt r c).func && maskFn m r c))
              ∧ (t.cellAt r c).func = (s.cellAt r c).func)
        ∧ (∀ addr, (∀ r c, r < s.side → c < s.side → (s.cellAt r c).func = false → maskFn m r c = true →
            addr ≠ cellAddr r c) → t.byteAt addr = s.byteAt addr)
        ∧ t.selValid = false ∧ t.selMask = s.selMask ∧ t.bestScore = s.bestScore ∧ SameScores s t
        ∧ SameControl s t ∧ SameResults s t ∧ SameEncoder s t ∧ t.version = s.version ∧ SameAgents s t
        ∧ ∃ u, exec (.maskApply m) t = .next u ∧ SameCells s u) ∧
    (s.version = 0#8 → ∃ t, exec (.maskApply m) s = .next t ∧ OnlyCompleted .notConfigured 0x32#8 s t)

/-- R152: `BCH_FORMAT e, m` leaves the masked format word in RESULT and the unmasked one in RESULT_AUX. -/
def Obligations.BchFormatWritesTheFormatWord : Prop :=
  (∀ (e : BitVec 2) (m : MaskId),
    encode (.bchFormat e m) = m.setWidth 32 <<< 16 ||| e.setWidth 32 <<< 8 ||| 0x40#32) ∧
  ∀ (e : BitVec 2) (m : MaskId) (s : State),
    CodesOf 0x40#8 (fun w => 3 < (argA w).toNat ∨ 7 < (argB w).toNat ∨ rsvField w ≠ 0#8) False s ∧
    ∃ t, exec (.bchFormat e m) s = .next t ∧ Completed .ok 0x40#8 s t
      ∧ t.resultAux.toNat = (e ++ m).toNat * 2 ^ 10 + bchRem (e ++ m).toNat 5 0x537 10
      ∧ t.result = t.resultAux ^^^ 0x5412#32 ∧ t.result ≠ 0#32
      ∧ (e = 0#2 → m = 0#3 → t.resultAux = 0#32 ∧ t.result = 0x5412#32)
      ∧ (e = 3#2 → m = 7#3 → t.resultAux = 0x7FFF#32 ∧ t.result = 0x2BED#32)
      ∧ (e = 1#2 → m = 0#3 → t.resultAux = 0x23D6#32 ∧ t.result = 0x77C4#32)
      ∧ SameControl s t ∧ SameEncoder s t ∧ t.version = s.version ∧ SameSelection s t ∧ SameScores s t
      ∧ SameCells s t ∧ SameAgents s t

/-- R153, R156: `BCH_VERSION v` leaves the version word in RESULT and RESULT_AUX, for every 6-bit value. -/
def Obligations.BchVersionWritesTheVersionWord : Prop :=
  (∀ v : BitVec 6, encode (.bchVersion v) = v.setWidth 32 <<< 8 ||| 0x41#32) ∧
  ∀ (v : BitVec 6) (s : State),
    CodesOf 0x41#8 (fun w => 63 < (argA w).toNat ∨ argB w ≠ 0#8 ∨ rsvField w ≠ 0#8) False s ∧
    ∃ t, exec (.bchVersion v) s = .next t ∧ Completed .ok 0x41#8 s t
      ∧ t.result.toNat = v.toNat * 2 ^ 12 + bchRem v.toNat 6 0x1F25 12 ∧ t.resultAux = t.result
      ∧ (v = 0#6 → t.result = 0#32) ∧ (v = 63#6 → t.result = 0x3FB85#32) ∧ (v = 7#6 → t.result = 0x7C94#32)
      ∧ SameControl s t ∧ SameEncoder s t ∧ t.version = s.version ∧ SameSelection s t ∧ SameScores s t
      ∧ SameCells s t ∧ SameAgents s t

/-! ## Result codes -/

/-- R162, R163, R182, R183: every command word in flight completes in one Engine step, with the code that `check`
gives, its opcode in LAST_OP, DONE set, and nothing in flight. -/
def Obligations.EngineCompletesWithTheCheckedCode : Prop :=
  ∀ (w : Word) (s : State), s.inflight = some w →
    ∃ t, engineStep s = .next t ∧ Completed (check w s) (opField w) s t

/-- R164, R187: a command that completes with a nonzero code has changed nothing but the completion record. -/
def Obligations.FailedCommandHasNoOtherEffect : Prop :=
  ∀ (w : Word) (s t : State), execute w s = .next t → t.err ≠ .ok → OnlyCompleted t.err (opField w) s t

/-- R75: a reserved opcode is accepted like any command and completes with ILLEGAL_OP whatever the other bits are; a
listed one with RSV ≠ 0 or an argument out of range completes with BAD_ARG; neither changes anything else. -/
def Obligations.ReservedOpcodeIsIllegal : Prop :=
  (∀ op : Byte, op ∉ listedOps ↔ (0x02 ≤ op.toNat ∧ op.toNat ≤ 0x0F) ∨ (0x12 ≤ op.toNat ∧ op.toNat ≤ 0x1F)
    ∨ (0x23 ≤ op.toNat ∧ op.toNat ≤ 0x2F) ∨ (0x33 ≤ op.toNat ∧ op.toNat ≤ 0x3F) ∨ 0x42 ≤ op.toNat) ∧
  ∀ (w : Word) (s : State),
    (s.inflight = none → busWrite 0x00014#20 0xF#4 w s = ({ s with inflight := some w }, .written)) ∧
    (opField w ∉ listedOps → ∃ t, execute w s = .next t ∧ OnlyCompleted .illegalOp (opField w) s t) ∧
    (opField w ∈ listedOps → rsvField w ≠ 0#8 ∨ argsInRange s.params (opField w) (argA w) (argB w) = false →
      ∃ t, execute w s = .next t ∧ OnlyCompleted .badArg (opField w) s t)

/-- R28: only the four result commands write RESULT and RESULT_AUX, and only with code OK. -/
def Obligations.ResultsWrittenOnlyByResultCommands : Prop :=
  ∀ (i : Instr) (s t : State), exec i s = .next t → ¬ SameResults s t →
    t.err = .ok ∧ ((∃ a b, i = .gfMul a b) ∨ (∃ e, i = .gfExp e) ∨ (∃ e m, i = .bchFormat e m) ∨ ∃ v, i = .bchVersion v)

/-! ## Encoding -/

/-- R70, R73, R77: words written out from the opcode map decode to the commands they stand for. -/
def Obligations.WrittenWordsDecode : Prop :=
  decode 0x00000A20#32 = .instr (.rsSetup 10#8) ∧ decode 0x00000140#32 = .instr (.bchFormat 1#2 0#3) ∧
  decode 0x00CA5310#32 = .instr (.gfMul 0x53#8 0xCA#8) ∧ decode 0x00000332#32 = .instr (.maskApply 3#3) ∧
  decode 0x00002801#32 = .instr (.setVersion 40#8) ∧ decode 0x00000830#32 = .badArg ∧
  decode 0x01000000#32 = .badArg ∧ decode 0xFF0000FF#32 = .illegalOp

/-- R70 to R77: decoding the word of a command gives the command back, with every operand. -/
def Obligations.DecodeInvertsEncode : Prop := ∀ i : Instr, decode (encode i) = .instr i

/-- R70 to R77: a word decodes to at most the command whose word it is, so no bit of a word is dropped. -/
def Obligations.EncodeInvertsDecode : Prop := ∀ (w : Word) (i : Instr), decode w = .instr i → encode i = w

/-! ## Steps and the invariant -/

/-- R161, R162: when the Engine moves and the word in flight decodes to a command, the step is `exec` of that command
on the state whose move has been taken off the schedule. The second clause is the model's choice (log entries 3 and 4):
the word that `withFetchWord` puts in flight runs next, because it also empties the schedule; R161 itself lets the
Engine's step come at any time. -/
def Obligations.StepRunsTheDecodedCommand : Prop :=
  (∀ (s : State) (w : Word) (i : Instr), s.inflight = some w → nextMove s = .engine → decode w = .instr i →
    step s = exec i (popMove s)) ∧
  ∀ (s : State) (i : Instr) (w : Word), decode w = .instr i →
    step (s.withFetchWord 32 w.toNat) = exec i (s.withFetchWord 32 w.toNat)

/-- R160, R161, R218: with no move scheduled, a command in flight completes next; with none in flight the Host moves,
and a Host with nothing left to do leaves the state as it is. The default order is the model's choice (log entry 4), and
so is the step that changes nothing (log entry 17). -/
def Obligations.DefaultOrderCompletesCommands : Prop :=
  ∀ s : State, s.schedule = [] →
    (∀ w, s.inflight = some w → step s = execute w (popMove s)) ∧
    (s.inflight = none → step s = .next (hostStep (popMove s))) ∧
    (s.ended → step s = .next s)

/-- R182: every step answers a next state. -/
def Obligations.EveryStepAnswers : Prop := ∀ s : State, ∃ t, step s = .next t

/-- The invariant holds after the power-on reset of the default implementation (log entry 5), and after a reset of every
implementation: for all parameters in their ranges, with the Host's temporaries, which a reset leaves (log entry 12),
listed in rising order, and so from State.reset with any such parameters. -/
def Obligations.ResetMeetsTheInvariant : Prop :=
  State.reset.Inv ∧
  (∀ s : State, s.params.wf = true → keysRise s.temps = true → (resetBlock s).Inv) ∧
  ∀ p : Params, p.wf = true → (resetBlock { State.reset with params := p }).Inv

/-- R33, R34, R29, R36: every step keeps the invariant: the canonical form of the matrix RAM, the legal values of CFG,
GEN as the generator of degree EC_LEN, REM zero above it, SCORE the sum of its four contributions. -/
def Obligations.StepKeepsTheInvariant : Prop := ∀ s t : State, s.Inv → step s = .next t → t.Inv

/-- R218: a command in flight ends within the scheduled moves and one more, whatever the Host does meanwhile. The
schedule, and the Engine's move after it, are the model's choice (log entry 4). -/
def Obligations.CommandInFlightEnds : Prop :=
  ∀ s : State, s.inflight ≠ none →
    ∃ k t, k ≤ s.schedule.length + 1 ∧ Sys2Proof.core.run k s = .next t ∧ t.inflight = none

/-- R186: the completion of a command and a write that clears DONE may come in either order, and the later one
decides DONE. -/
def Obligations.LaterEventDecidesDone : Prop :=
  ∀ (w : Word) (s t : State), s.inflight = some w → engineStep s = .next t →
    (writeIrqStat 0x1#32 t).irqDone = false ∧
    ∃ u, engineStep (writeIrqStat 0x1#32 s) = .next u ∧ u.irqDone = true

/-! ## Reset -/

/-- R46, R210: after a power-on reset (State.reset) and after any later reset every register has its reset value, `irq`
and STATUS are 0 and no cell is written; ID and PARAMS are constants. The last clause is the model's choice (log entry
12): a pulse of `rst` is one step, whose result is `resetBlock`, which keeps what is the Host's. -/
def Obligations.ResetLeavesResetValues : Prop :=
  ResetValues State.reset ∧ State.reset.irq = false ∧ State.reset.statusWord = 0#32 ∧
  ∀ s : State, ResetValues (resetBlock s) ∧ (resetBlock s).irq = false ∧ (resetBlock s).statusWord = 0#32
    ∧ (resetBlock s).readTarget .id = s.readTarget .id ∧ (resetBlock s).readTarget .params = s.readTarget .params
    ∧ (nextMove s = .rst → step s = .next (resetBlock (popMove s)))

/-- R212: a write to CTRL with bit 31 = 1 resets every register and cell even while a command is in flight, which is
cancelled and leaves no record; the bits 1:0 of the write are discarded. -/
def Obligations.SoftResetCancelsAndClears : Prop :=
  ∀ (s : State) (v : Word), v.getLsbD 31 = true →
    ∃ t, busWrite 0x00008#20 0xF#4 v s = (t, .written) ∧ ResetValues t ∧ t.params = s.params

/-! ## Control registers and the interrupt -/

/-- R24: a write to CTRL with bit 31 = 0 sets the two enables from bits 0 and 1 and nothing else, busy or not; with
bit 31 = 1 it is a soft reset and CTRL then holds its reset value. CTRL reads back the two bits, the others 0. -/
def Obligations.CtrlWriteSetsTheEnables : Prop :=
  (∀ s : State, busRead 0x00008#20 s = (s, .data s.ctrlWord) ∧ s.ctrlWord &&& 0x3#32 = s.ctrlWord) ∧
  ∀ (s : State) (v : Word),
    (v.getLsbD 31 = false →
      ∃ t, busWrite 0x00008#20 0xF#4 v s = (t, .written) ∧ t.ieDone = v.getLsbD 0 ∧ t.ieErr = v.getLsbD 1
        ∧ t.ctrlWord = v &&& 0x3#32 ∧ t = { s with ieDone := t.ieDone, ieErr := t.ieErr }) ∧
    (v.getLsbD 31 = true →
      ∃ t, busWrite 0x00008#20 0xF#4 v s = (t, .written) ∧ t = resetBlock s ∧ t.ctrlWord = 0#32)

/-- R26: IRQ_STAT reads DONE in bit 0 and ERR in bit 1, the other bits 0; a write to it clears the bits written 1 and
nothing else, busy or not. -/
def Obligations.IrqStatClearsBitsWrittenOne : Prop :=
  (∀ s : State, busRead 0x00010#20 s = (s, .data s.irqStatWord) ∧ s.irqStatWord.getLsbD 0 = s.irqDone
    ∧ s.irqStatWord.getLsbD 1 = s.irqErr ∧ s.irqStatWord.extractLsb' 2 30 = 0#30) ∧
  ∀ (s : State) (v : Word),
    ∃ t, busWrite 0x00010#20 0xF#4 v s = (t, .written)
      ∧ t.irqDone = (s.irqDone && !v.getLsbD 0) ∧ t.irqErr = (s.irqErr && !v.getLsbD 1)
      ∧ busRead 0x00010#20 t = (t, .data (s.irqStatWord &&& ~~~ v))
      ∧ t = { s with irqDone := t.irqDone, irqErr := t.irqErr }

/-- R190: `irq` is (IE_DONE and DONE) or (IE_ERR and ERR), 0 after reset. So a completion raises it exactly when DONE
is enabled, or ERR is enabled and the code is nonzero or an earlier error is still pending; acknowledging both bits
drops it. -/
def Obligations.CompletionRaisesTheEnabledInterrupt : Prop :=
  (∀ s : State, s.irq = true ↔ (s.ieDone = true ∧ s.irqDone = true) ∨ (s.ieErr = true ∧ s.irqErr = true)) ∧
  State.reset.irq = false ∧
  ∀ (w : Word) (s t : State), s.inflight = some w → engineStep s = .next t →
    (t.irq = true ↔ s.ieDone = true ∨ (s.ieErr = true ∧ (check w s ≠ .ok ∨ s.irqErr = true)))
      ∧ (writeIrqStat 0x3#32 t).irq = false

/-! ## The bus -/

/-- R181: exactly the five causes make a write end with ERROR, exactly the first and the third of them a read, and an
ERROR changes no state; every other write is OKAY. -/
def Obligations.BusErrorsHaveFiveCauses : Prop :=
  ∀ (a : BusAddr) (strobes : BitVec 4) (v : Word) (s : State), s.params.wf = true →
    ((busWrite a strobes v s).2 = .error a ↔
      a.toNat % 4 ≠ 0 ∨ strobes ≠ 0xF#4 ∨ (∀ t : Target, t.present s.params = true → t.addr ≠ a.toNat)
        ∨ (∃ t : Target, t.present s.params = true ∧ t.addr = a.toNat ∧ t.readOnly = true)
        ∨ (s.busy = true ∧ a.toNat ≠ Target.ctrl.addr ∧ a.toNat ≠ Target.irqStat.addr)) ∧
    ((busWrite a strobes v s).2 = .error a → (busWrite a strobes v s).1 = s) ∧
    ((busWrite a strobes v s).2 ≠ .error a → (busWrite a strobes v s).2 = .written) ∧
    ((busRead a s).2 = .error a ↔
      a.toNat % 4 ≠ 0 ∨ ∀ t : Target, t.present s.params = true → t.addr ≠ a.toNat) ∧
    ((busRead a s).2 = .error a → (busRead a s).1 = s)

/-- R59: a read changes nothing but the model's own count of free answers (log entry 2), and not even that while
nothing is in flight; it then returns the register or cell. A read of CMD returns 0. -/
def Obligations.ReadsHaveNoSideEffect : Prop :=
  ∀ (a : BusAddr) (s : State),
    (busRead a s).1 = { s with draws := (busRead a s).1.draws } ∧
    (s.busy = false → busRead a (busRead a s).1 = busRead a s) ∧
    busRead 0x00014#20 s = (s, .data 0#32) ∧
    ∀ t, decodeAddr s.params a = some t → s.busy = false → busRead a s = (s, .data (s.readTarget t))

/-- R55, R56: an address is mapped exactly when it is the address of a register or a cell that exists, and it then
selects that one; an aligned address of the matrix window selects the cell of its row and column bits, and is mapped
exactly when both are below NMAX. -/
def Obligations.AddressMapIsExact : Prop :=
  ∀ p : Params, p.wf = true →
    (∀ t : Target, t.present p = true → t.addr < 2 ^ 20 ∧ decodeAddr p (BitVec.ofNat 20 t.addr) = some t) ∧
    (∀ (a : BusAddr) (t : Target), decodeAddr p a = some t → t.present p = true ∧ t.addr = a.toNat) ∧
    ∀ a : BusAddr, a.toNat % 4 = 0 → 0x10000 ≤ a.toNat → a.toNat ≤ 0x4FFFC →
      decodeAddr p a =
        if (a.toNat - 0x10000) / 1024 % 256 < p.nmax ∧ (a.toNat - 0x10000) / 4 % 256 < p.nmax
        then some (.cell ((a.toNat - 0x10000) / 1024 % 256) ((a.toNat - 0x10000) / 4 % 256)) else none

/-- R22 to R37: what every register and cell reads as (`readTarget`, the word that
ReadsHaveNoSideEffect and BusyReadsAreFreeOrValid put on the bus): each
field at its place, and every reserved bit 0. That bits 31:2 are 0 also for a cell that has not been written, whose read
R61 leaves unspecified, is the model's choice (log entry 8). -/
def Obligations.RegisterWordsHoldTheirFields : Prop :=
  ∀ s : State, s.Inv →
    (s.readTarget .id = 0x51524543#32 ∧ s.readTarget .cmd = 0#32) ∧
    ((s.readTarget .params).extractLsb' 0 8 = s.params.maxEc ∧ (s.readTarget .params).extractLsb' 8 8 = s.params.maxVersion
      ∧ ((s.readTarget .params).extractLsb' 16 8).toNat = 17 + 4 * s.params.maxVersion.toNat
      ∧ (s.readTarget .params).extractLsb' 24 8 = 0#8) ∧
    ((s.readTarget .ctrl).getLsbD 0 = s.ieDone ∧ (s.readTarget .ctrl).getLsbD 1 = s.ieErr
      ∧ (s.readTarget .ctrl).extractLsb' 2 30 = 0#30) ∧
    ((s.readTarget .status).extractLsb' 0 1 = BitVec.ofBool (decide (s.inflight ≠ none))
      ∧ (s.readTarget .status).extractLsb' 1 1 = BitVec.ofBool (decide (s.ecLen ≠ 0#8))
      ∧ (s.readTarget .status).extractLsb' 2 1 = BitVec.ofBool (decide (s.version ≠ 0#8))
      ∧ (s.readTarget .status).extractLsb' 3 5 = 0#5 ∧ (s.readTarget .status).extractLsb' 8 4 = s.err.bits
      ∧ (s.readTarget .status).extractLsb' 12 4 = 0#4 ∧ (s.readTarget .status).extractLsb' 16 8 = s.lastOp
      ∧ (s.readTarget .status).extractLsb' 24 8 = 0#8) ∧
    ((s.readTarget .irqStat).getLsbD 0 = s.irqDone ∧ (s.readTarget .irqStat).getLsbD 1 = s.irqErr
      ∧ (s.readTarget .irqStat).extractLsb' 2 30 = 0#30) ∧
    (s.readTarget .result = s.result ∧ s.readTarget .resultAux = s.resultAux
      ∧ s.readTarget .bestScore = s.bestScore) ∧
    ((s.readTarget .cfg).extractLsb' 0 8 = s.ecLen ∧ (s.readTarget .cfg).extractLsb' 8 8 = s.version
      ∧ ((s.readTarget .cfg).extractLsb' 16 8).toNat = (if s.version = 0#8 then 0 else 17 + 4 * s.version.toNat)
      ∧ (s.readTarget .cfg).extractLsb' 24 8 = 0#8) ∧
    ((s.readTarget .feedCnt).extractLsb' 0 16 = s.feedCnt ∧ (s.readTarget .feedCnt).extractLsb' 16 16 = 0#16) ∧
    ((s.readTarget .sel).extractLsb' 0 3 = s.selMask ∧ (s.readTarget .sel).extractLsb' 3 5 = 0#5
      ∧ (s.readTarget .sel).getLsbD 8 = s.selValid ∧ (s.readTarget .sel).extractLsb' 9 23 = 0#23) ∧
    (∀ m : MaskId, s.readTarget (.score m) = s.score[m.toNat]'m.isLt) ∧
    (∀ (m : MaskId) (k : BitVec 2), s.readTarget (.pen m k) = (s.pen[m.toNat]'m.isLt)[k.toNat]'k.isLt) ∧
    (∀ i, i < s.params.maxEc.toNat →
      s.gen[i]? = some ((s.readTarget (.gen i)).extractLsb' 0 8) ∧ (s.readTarget (.gen i)).extractLsb' 8 24 = 0#24
        ∧ s.rem[i]? = some ((s.readTarget (.rem i)).extractLsb' 0 8)
        ∧ (s.readTarget (.rem i)).extractLsb' 8 24 = 0#24) ∧
    ∀ r c, (s.readTarget (.cell r c)).getLsbD 0 = (s.cellAt r c).dark
      ∧ (s.readTarget (.cell r c)).getLsbD 1 = (s.cellAt r c).func ∧ (s.readTarget (.cell r c)).extractLsb' 2 30 = 0#30

/-- R220: while a command is in flight a read of a hidden register or cell answers a free value, fresh for each read,
and a read of ID, PARAMS, CTRL, STATUS, IRQ_STAT or CMD answers its value; neither changes the block. STATUS then still
describes the command completed before, with BUSY set. That a free answer is `Config.freeDraw` of a count which the read
advances, the model's own state, is the model's choice (log entry 2). -/
def Obligations.BusyReadsAreFreeOrValid : Prop :=
  (∀ (a : BusAddr) (t : Target) (s : State), decodeAddr s.params a = some t → s.busy = true →
    ((t = .id ∨ t = .params ∨ t = .ctrl ∨ t = .status ∨ t = .irqStat ∨ t = .cmd) →
      busRead a s = (s, .data (s.readTarget t))) ∧
    (¬ (t = .id ∨ t = .params ∨ t = .ctrl ∨ t = .status ∨ t = .irqStat ∨ t = .cmd) →
      busRead a s = ({ s with draws := s.draws + 1 }, .data (Config.freeDraw s.draws)))) ∧
  ∀ (w : Word) (s : State), s.inflight = none →
    (busRead 0x0000C#20 (issue w s)).2 = .data (s.statusWord ||| 0x1#32)

/-- R221, R169: while a command is in flight, a write to CTRL or IRQ_STAT has its normal effect and every other write,
a second CMD among them, is an ERROR. -/
def Obligations.BusyWritesAreRefused : Prop :=
  ∀ (a : BusAddr) (t : Target) (v : Word) (s : State), decodeAddr s.params a = some t → s.busy = true →
    (t = .ctrl → busWrite a 0xF#4 v s = (writeCtrl v s, .written)) ∧
    (t = .irqStat → busWrite a 0xF#4 v s = (writeIrqStat v s, .written)) ∧
    (t ≠ .ctrl → t ≠ .irqStat → busWrite a 0xF#4 v s = (s, .error a))

/-- R160: while nothing is in flight, every word written to CMD is accepted into INFLIGHT, BUSY becomes 1, and no other
state changes; while a command is in flight the write is an ERROR. -/
def Obligations.EveryCommandWordIsAccepted : Prop :=
  ∀ (w : Word) (s : State),
    (s.inflight = none →
      ∃ t, busWrite 0x00014#20 0xF#4 w s = (t, .written) ∧ t.busy = true ∧ t = { s with inflight := some w }) ∧
    (s.inflight ≠ none → busWrite 0x00014#20 0xF#4 w s = (s, .error 0x00014#20))

/-- R60, R61, R37: a write to a cell stores bits 1:0, reads back with bits 31:2 zero, and changes no other cell and no
register; SEL stays as it is (R225). -/
def Obligations.CellWriteReadsBack : Prop :=
  ∀ (r c : Nat) (v : Word) (s : State), s.params.wf = true → r < s.params.nmax → c < s.params.nmax →
    s.inflight = none →
    ∃ t, busWrite (BitVec.ofNat 20 (cellAddr r c)) 0xF#4 v s = (t, .written)
      ∧ busRead (BitVec.ofNat 20 (cellAddr r c)) t = (t, .data (v &&& 0x3#32))
      ∧ (t.cellAt r c).dark = v.getLsbD 0 ∧ (t.cellAt r c).func = v.getLsbD 1 ∧ t.written r c = true
      ∧ (∀ addr, addr ≠ cellAddr r c → t.byteAt addr = s.byteAt addr)
      ∧ t = { s with mem := t.mem }

/-- R50: the block's window is the 1 MiB from `P_BASE`, wherever that 1 MiB-aligned address is, and an address in it
selects its offset, which is its low 20 bits. -/
def Obligations.WindowSelectsOffsets : Prop :=
  Config.pBase % 0x100000 = 0 ∧ (∀ a : BusAddr, offsetOfSystem (Config.pBase + a.toNat) = some a) ∧
  (∀ (sys : Nat) (a : BusAddr), offsetOfSystem sys = some a →
    sys = Config.pBase + a.toNat ∧ a.toNat = sys % 0x100000) ∧
  ∀ sys : Nat, offsetOfSystem sys = none ↔ sys < Config.pBase ∨ Config.pBase + 0x100000 ≤ sys

/-! ## Whole-machine rules -/

/-- R221: no Host step changes the inputs of a command in flight, unless it resets the block. -/
def Obligations.HostCannotDisturbACommand : Prop :=
  ∀ s : State, s.busy = true →
    ResetValues (hostStep s) ∨
      ((hostStep s).inflight = s.inflight ∧ (hostStep s).params = s.params ∧ SameResults s (hostStep s)
        ∧ SameEncoder s (hostStep s) ∧ (hostStep s).version = s.version ∧ SameSelection s (hostStep s)
        ∧ SameScores s (hostStep s) ∧ (hostStep s).mem = s.mem ∧ (hostStep s).resets = s.resets
        ∧ (hostStep s).err = s.err ∧ (hostStep s).lastOp = s.lastOp)

/-- R40: only an accepted Host write to a cell, the completion of MASK_APPLY and a reset change the matrix RAM. -/
def Obligations.MatrixChangesOnlyByWriteApplyOrReset : Prop :=
  ∀ s t : State, step s = .next t →
    SameCells s t ∨ t.resets = s.resets + 1 ∨
    (nextMove s = .host ∧ ∃ (a : BusAddr) (v : Word) (r c : Nat),
      s.hostProg[s.busPos]? = some (.write a 0xF#4 v) ∧ decodeAddr s.params a = some (.cell r c) ∧ s.inflight = none
        ∧ ∀ addr, addr ≠ cellAddr r c → t.byteAt addr = s.byteAt addr) ∨
    (nextMove s = .engine ∧ ∃ (w : Word) (m : MaskId), s.inflight = some w ∧ decode w = .instr (.maskApply m)
      ∧ s.version ≠ 0#8)

/-- R41: the Engine changes no function cell and no FUNC bit, and only `MASK_APPLY` changes any cell; a Host write may
change any cell, its FUNC bit included. -/
def Obligations.EngineKeepsFunctionCells : Prop :=
  (∀ (w : Word) (s t : State), s.inflight = some w → engineStep s = .next t →
    (∀ r c, (t.cellAt r c).func = (s.cellAt r c).func ∧ ((s.cellAt r c).func = true → t.cellAt r c = s.cellAt r c)) ∧
    ((∀ m, decode w ≠ .instr (.maskApply m)) → t.mem = s.mem ∧ SameCells s t)) ∧
  ∀ (r c : Nat) (cell : QrCell) (s : State), s.params.wf = true → r < s.params.nmax → c < s.params.nmax →
    s.inflight = none → ∃ v : Word, ((busWrite (BitVec.ofNat 20 (cellAddr r c)) 0xF#4 v s).1.cellAt r c) = cell

/-- R79: a Host step is one bus transaction, the one that `bnz` and `beq` lead to from the Host's position: `wr` makes a
bus write, `rd` a bus read that stores the data word in its temporary. The model's choices: after an ERROR the Host goes
on with the next operation and the temporary is not written (log entry 6); a temporary that nothing has written counts
as 0 in the jumps (log entry 7); `bnz` and `beq` are no steps of their own, and going round in them for ever is no step
(log entry 15); a Host with no transaction left leaves the state as it is (log entry 17). -/
def Obligations.HostFollowsItsProgram : Prop :=
  ∀ s : State,
    (∀ (pos : Nat) (a : BusAddr) (strobes : BitVec 4) (v : Word), Jumps s s.hostPc pos →
      s.hostProg[pos]? = some (.write a strobes v) →
      ∃ b r, busWrite a strobes v s = (b, r) ∧ hostStep s = { b with resp := some r, hostPc := pos + 1 }) ∧
    (∀ (pos : Nat) (a : BusAddr) (t : Nat), Jumps s s.hostPc pos → s.hostProg[pos]? = some (.read a t) →
      ∃ b r, busRead a s = (b, r) ∧ (∀ x, r = .data x → (hostStep s).temp t = x)
        ∧ (r = .error a → (hostStep s).temps = s.temps) ∧ (∀ k, k ≠ t → (hostStep s).temp k = s.temp k)
        ∧ hostStep s = { b with resp := some r, hostPc := pos + 1, temps := (hostStep s).temps }) ∧
    (∀ pos : Nat, Jumps s s.hostPc pos → s.hostProg[pos]? = none → hostStep s = s) ∧
    ((∀ pos : Nat, Jumps s s.hostPc pos → (∃ t mask target, s.hostProg[pos]? = some (.bnz t mask target))
        ∨ ∃ t v target, s.hostProg[pos]? = some (.beq t v target)) → hostStep s = s)

/-- R135: for the same active region the scoring commands give the same values. -/
def Obligations.ScoresDependOnTheActiveRegion : Prop :=
  ∀ s₁ s₂ : State, s₁.version = s₂.version → s₁.version ≠ 0#8 →
    (∀ r c, r < s₁.side → c < s₁.side → s₁.cellAt r c = s₂.cellAt r c) →
    (∀ m, ∃ t₁ t₂, exec (.penScore m) s₁ = .next t₁ ∧ exec (.penScore m) s₂ = .next t₂
      ∧ scoreAt t₁.score m = scoreAt t₂.score m ∧ ∀ k, penAt t₁.pen m k = penAt t₂.pen m k) ∧
    ∃ t₁ t₂, exec .maskEval s₁ = .next t₁ ∧ exec .maskEval s₂ = .next t₂ ∧ SameScores t₁ t₂ ∧ SameSelection t₁ t₂

/-- R220, R222, R224: a read of a stated value rests on no free value: neither the contents of unwritten cells nor the
answers of `draw()` show in it. A cell that `MASK_APPLY` has flipped counts as written: what the state lists for it is
taken as it stands (the model's choice, log entry 23). -/
def Obligations.StatedReadsRestOnNoFreeValue : Prop :=
  ∀ (s : State) (d k : Nat) (a : BusAddr) (t : Target), decodeAddr s.params a = some t → readStated s t →
    (busRead a { s with draws := d, resets := k }).2 = (busRead a s).2

/-- R224: a command whose active region is loaded rests on no free value: neither the contents of unwritten cells nor the
answers of `draw()` show in its result. A cell that `MASK_APPLY` has flipped counts as written: what the state lists for
it is taken as it stands (the model's choice, log entry 23). -/
def Obligations.StatedCommandsRestOnNoFreeValue : Prop :=
  ∀ (s : State) (d k : Nat) (w : Word), commandStated s w →
    ∃ t, execute w s = .next t
      ∧ execute w { s with draws := d, resets := k } = .next { t with draws := d, resets := k }

/-! ## GF(256) and Reed-Solomon -/

/-- R96: ⊕ and ⊗ are commutative and associative, ⊗ distributes over ⊕, 0 and 1 are their identities, a ⊕ a = 0, and
every a ≠ 0 has the inverse α^(255 − log a). -/
def Obligations.GfMultiplicationIsAFieldProduct : Prop :=
  (∀ a b : Byte, gfmul a b = gfmul b a) ∧ (∀ a b c : Byte, gfmul (gfmul a b) c = gfmul a (gfmul b c)) ∧
  (∀ a b c : Byte, gfmul a (gfadd b c) = gfadd (gfmul a b) (gfmul a c)) ∧ (∀ a : Byte, gfmul a 1#8 = a) ∧
  (∀ a b : Byte, gfadd a b = gfadd b a) ∧ (∀ a b c : Byte, gfadd (gfadd a b) c = gfadd a (gfadd b c)) ∧
  (∀ a : Byte, gfadd a 0#8 = a) ∧ (∀ a : Byte, gfadd a a = 0#8) ∧
  ∀ a : Byte, a ≠ 0#8 → ∃ i < 255, alphaPow i = a ∧ gfmul a (alphaPow (255 - i)) = 1#8

/-- R93: α is 0x02, its powers α⁰ … α^254 are the 255 nonzero elements, each once, and α^255 = 1; the first values. -/
def Obligations.AlphaIsPrimitive : Prop :=
  (∀ i, alphaPow (i + 1) = gfmul (alphaPow i) 0x02#8) ∧ alphaPow 0 = 0x01#8 ∧ alphaPow 255 = 0x01#8 ∧
  (List.range 17).map alphaPow = [0x01#8, 0x02#8, 0x04#8, 0x08#8, 0x10#8, 0x20#8, 0x40#8, 0x80#8, 0x1D#8, 0x3A#8,
    0x74#8, 0xE8#8, 0xCD#8, 0x87#8, 0x13#8, 0x26#8, 0x4C#8] ∧
  alphaPow 254 = 0x8E#8 ∧ (∀ i, alphaPow i ≠ 0#8) ∧
  (∀ i j, i < 255 → j < 255 → alphaPow i = alphaPow j → i = j) ∧ ∀ a : Byte, a ≠ 0#8 → ∃ i < 255, alphaPow i = a

/-- R101: the generator of degree n is monic and has the roots α⁰ … α^(n−1). -/
def Obligations.GeneratorHasItsRoots : Prop :=
  ∀ n : Nat, (genPoly n).length = n + 1 ∧ (genPoly n).getD n 0#8 = 0x01#8 ∧
    ∀ i < n, polyEval (genPoly n).reverse (alphaPow i) = 0#8

/-- R102: after RS_SETUP n, or RS_CLEAR while EC_LEN = n, and one RS_FEED for each data codeword, REM[0..n−1] is the
remainder of m(x)·xⁿ by g(x), from the highest degree down; FEED_CNT counts the codewords. With none fed it is 0. -/
def Obligations.RemainderIsLongDivision : Prop :=
  (∀ (n : Byte) (data : List Byte) (s : State), 1 ≤ n.toNat → n.toNat ≤ s.params.maxEc.toNat →
    ∃ t, execAll (.rsSetup n :: data.map Instr.rsFeed) s = .next t ∧ t.rem.take n.toNat = remainderOf n.toNat data
      ∧ t.feedCnt = BitVec.ofNat 16 data.length) ∧
  (∀ (data : List Byte) (s : State), s.Inv → s.ecLen ≠ 0#8 →
    ∃ t, execAll (.rsClear :: data.map Instr.rsFeed) s = .next t
      ∧ t.rem.take s.ecLen.toNat = remainderOf s.ecLen.toNat data ∧ t.feedCnt = BitVec.ofNat 16 data.length) ∧
  ∀ n : Nat, remainderOf n [] = List.replicate n 0#8

/-- R110: g(x) divides the data codewords followed by the EC codewords, so the codeword has the roots α⁰ … α^(n−1). -/
def Obligations.CodewordHasTheGeneratorsRoots : Prop :=
  ∀ (n : Byte) (data : List Byte) (s : State), 1 ≤ n.toNat → n.toNat ≤ s.params.maxEc.toNat →
    ∃ t, execAll (.rsSetup n :: data.map Instr.rsFeed) s = .next t ∧
      longDivide (generatorLow n.toNat) data.length (data ++ t.rem.take n.toNat) = List.replicate n.toNat 0#8 ∧
      ∀ i < n.toNat, polyEval (data ++ t.rem.take n.toNat) (alphaPow i) = 0#8

/-! ## BCH -/

/-- R155: the unmasked format word is a multiple of G15 and the version word a multiple of G18, over GF(2); the masked
format word is not a multiple for every argument. -/
def Obligations.BchWordsAreMultiples : Prop :=
  (∀ (e : BitVec 2) (m : MaskId) (s : State), ∃ t, exec (.bchFormat e m) s = .next t ∧
    ∃ q < 2 ^ 5, t.resultAux.toNat = gf2Product 5 q 0x537) ∧
  (∀ (v : BitVec 6) (s : State), ∃ t, exec (.bchVersion v) s = .next t ∧
    ∃ q < 2 ^ 6, t.result.toNat = gf2Product 6 q 0x1F25) ∧
  ∀ s : State, ∃ t, exec (.bchFormat 0#2 0#3) s = .next t ∧ ∀ q < 2 ^ 5, t.result.toNat ≠ gf2Product 5 q 0x537

/-! ## Masks and penalties -/

/-- R120: the eight mask formulas. -/
def Obligations.MaskFormulas : Prop :=
  ∀ r c : Nat,
    (maskFn 0#3 r c = true ↔ (r + c) % 2 = 0) ∧ (maskFn 1#3 r c = true ↔ r % 2 = 0) ∧
    (maskFn 2#3 r c = true ↔ c % 3 = 0) ∧ (maskFn 3#3 r c = true ↔ (r + c) % 3 = 0) ∧
    (maskFn 4#3 r c = true ↔ (r / 2 + c / 3) % 2 = 0) ∧ (maskFn 5#3 r c = true ↔ (r * c) % 2 + (r * c) % 3 = 0) ∧
    (maskFn 6#3 r c = true ↔ ((r * c) % 2 + (r * c) % 3) % 2 = 0) ∧
    (maskFn 7#3 r c = true ↔ ((r + c) % 2 + (r * c) % 3) % 2 = 0)

/-- R121: candidate m is the N × N matrix of the active region with every data cell flipped where the formula is
true. -/
def Obligations.CandidateFlipsDataCells : Prop :=
  ∀ (m : MaskId) (s : State), square s.side (candidate m s.active) ∧
    ∀ r c, r < s.side → c < s.side →
      at2 (candidate m s.active) r c = ((s.cellAt r c).dark ^^ (!(s.cellAt r c).func && maskFn m r c))

/-- R123: rule 1 adds 3 + (ℓ − 5) for every maximal run of ℓ ≥ 5 in every row and column. -/
def Obligations.Penalty1SumsMaximalRuns : Prop :=
  ∀ (n : Nat) (mat : List (List Bool)), square n mat → penalty1 mat = overLines n mat (runsOfLine n)

/-- R124: rule 2 adds 3 for every 2 × 2 window of one colour, overlapping ones included. -/
def Obligations.Penalty2CountsEveryWindow : Prop :=
  ∀ (n : Nat) (mat : List (List Bool)), square n mat → penalty2 mat = 3 * blocksOf n mat

/-- R125: rule 3 adds 40 for every 11-module window, inside a row or column, that equals PA or PB. -/
def Obligations.Penalty3CountsFinderWindows : Prop :=
  ∀ (n : Nat) (mat : List (List Bool)), square n mat → penalty3 mat = 40 * overLines n mat (windowsOfLine n)

/-- R126: rule 4 is 10 · floor(|dark_percent − 50| / 5) with the percentage an exact rational; for an odd side the
balance is never exactly 50 %. -/
def Obligations.Penalty4IsTheExactBalance : Prop :=
  ∀ (n : Nat) (mat : List (List Bool)), 0 < n → square n mat →
    penalty4 mat = 10 * ((20 * (darkOf n mat : Int) - 10 * (n * n : Int)).natAbs / (n * n)) ∧
    (penalty4 mat : Int) = 10 * ⌊|100 * (darkOf n mat : ℚ) / (n * n : ℚ) - 50| / 5⌋ ∧
    (n % 2 = 1 → 2 * darkOf n mat ≠ n * n)

/-- R129: no penalty overflows its register, and the divisor of rule 4 is at least 441. -/
def Obligations.PenaltiesAreBounded : Prop :=
  (∀ s : State, s.version ≠ 0#8 → 441 ≤ s.side * s.side) ∧
  ∀ (n : Nat) (mat : List (List Bool)), square n mat → n ≤ 177 →
    penalty1 mat ≤ 2 * n * (n - 2) ∧ penalty2 mat ≤ 3 * (n - 1) ^ 2 ∧ penalty3 mat ≤ 40 * 2 * (2 * n) * (n - 10) ∧
    penalty4 mat ≤ 100 ∧ penalty1 mat + penalty2 mat + penalty3 mat + penalty4 mat < 2 ^ 23
end

