-- ==== Sys2Proof/Laws/Decode.lean ====
section
/-! SUPPORT. The fields of a command word and of the encoding formula (30_encoding.md R70, R77). -/

namespace Sys2Proof

@[simp] theorem opField_commandWord (op a b : Byte) : opField (commandWord op a b) = op := by
  apply BitVec.eq_of_getLsbD_eq
  intro i hi
  interval_cases i <;> simp [opField, commandWord]

@[simp] theorem argA_commandWord (op a b : Byte) : argA (commandWord op a b) = a := by
  apply BitVec.eq_of_getLsbD_eq
  intro i hi
  interval_cases i <;> simp [argA, commandWord]

@[simp] theorem argB_commandWord (op a b : Byte) : argB (commandWord op a b) = b := by
  apply BitVec.eq_of_getLsbD_eq
  intro i hi
  interval_cases i <;> simp [argB, commandWord]

@[simp] theorem rsvField_commandWord (op a b : Byte) : rsvField (commandWord op a b) = 0#8 := by
  apply BitVec.eq_of_getLsbD_eq
  intro i hi
  interval_cases i <;> simp [rsvField, commandWord]

/-- A word with RSV = 0 is the word of its fields. -/
theorem commandWord_fields {w : Word} (h : rsvField w = 0#8) : commandWord (opField w) (argA w) (argB w) = w := by
  apply BitVec.eq_of_getLsbD_eq
  intro i hi
  have hr : 24 ≤ i → w.getLsbD i = false := by
    intro h24
    have := congrArg (fun x => x.getLsbD (i - 24)) h
    simpa [rsvField, BitVec.getLsbD_extractLsb', show i - 24 < 8 by omega, show 24 + (i - 24) = i by omega] using this
  interval_cases i <;> simp [opField, argA, argB, commandWord] <;> exact hr (by decide)

/-- What the decoder answers with a command has a listed opcode, RSV = 0 and arguments its row admits. -/
theorem decode_instr {w : Word} {i : Instr} (h : decode w = .instr i) :
    opField w ∈ listedOps ∧ rsvField w = 0#8 ∧ decodeArgs (opField w) (argA w) (argB w) = some i := by
  by_cases h1 : opField w ∈ listedOps
  · by_cases h2 : rsvField w = 0#8
    · cases h3 : decodeArgs (opField w) (argA w) (argB w) with
      | none => simp [decode, h1, h2, h3] at h
      | some j =>
        simp [decode, h1, h2, h3] at h
        exact ⟨h1, h2, by rw [h]⟩
    · simp [decode, h1, h2] at h
  · simp [decode, h1] at h

end Sys2Proof
end

