-- ==== Sys2Proof/Laws/Memory.lean ====
section
/-! SUPPORT. The laws of the matrix RAM: a read after a write, and that a write keeps the canonical form. -/

namespace Sys2Proof.Machine

variable {α : Type}

/-! ## Lists of key and value pairs -/

theorem assocGet_assocSet_same (k : Nat) (v : α) (l : List (Nat × α)) : assocGet k (assocSet k v l) = some v := by
  induction l with
  | nil => simp [assocSet, assocGet]
  | cons e rest ih =>
    obtain ⟨j, w⟩ := e
    by_cases h : k = j
    · simp [assocSet, assocGet, h]
    · by_cases h' : k < j
      · simp [assocSet, assocGet, h, h']
      · simp [assocSet, assocGet, h, h', ih]

theorem assocGet_assocSet_other {k k' : Nat} (hk : k' ≠ k) (v : α) (l : List (Nat × α)) :
    assocGet k' (assocSet k v l) = assocGet k' l := by
  induction l with
  | nil => simp [assocSet, assocGet, hk]
  | cons e rest ih =>
    obtain ⟨j, w⟩ := e
    by_cases h : k = j
    · subst h
      simp [assocSet, assocGet, hk]
    · by_cases h' : k < j
      · simp only [assocSet, assocGet, h, h', if_true, if_false, hk]
        by_cases h2 : k' < k
        · have : k' ≠ j := by omega
          have : k' < j := by omega
          simp [*]
        · simp [h2]
      · simp only [assocSet, assocGet, h, h', if_false, ih]

/-- Every key of a list from a lower bound on. -/
theorem keysRise_cons {j : Nat} {w : α} {rest : List (Nat × α)} :
    keysRise ((j, w) :: rest) = true ↔ (∀ e ∈ rest.head?, j < e.1) ∧ keysRise rest = true := by
  cases rest with
  | nil => simp [keysRise]
  | cons e rest =>
    obtain ⟨k, u⟩ := e
    simp [keysRise]

theorem head_assocSet (k : Nat) (v : α) (l : List (Nat × α)) {j : Nat} (hk : j < k)
    (hl : ∀ e ∈ l.head?, j < e.1) : ∀ e ∈ (assocSet k v l).head?, j < e.1 := by
  cases l with
  | nil => simpa [assocSet] using hk
  | cons e rest =>
    obtain ⟨i, w⟩ := e
    have hi : j < i := by simpa using hl
    simp only [assocSet]
    split
    · simpa using hk
    · split
      · simpa using hk
      · simpa using hi

theorem keysRise_assocSet (k : Nat) (v : α) (l : List (Nat × α)) (hl : keysRise l = true) :
    keysRise (assocSet k v l) = true := by
  induction l with
  | nil => rfl
  | cons e rest ih =>
    obtain ⟨j, w⟩ := e
    obtain ⟨hh, hr⟩ := keysRise_cons.mp hl
    simp only [assocSet]
    split
    · subst_vars
      exact keysRise_cons.mpr ⟨hh, hr⟩
    · split
      · exact keysRise_cons.mpr ⟨by simpa, hl⟩
      · exact keysRise_cons.mpr ⟨head_assocSet k v rest (by omega) hh, ih hr⟩

theorem mem_assocSet {k : Nat} {v : α} {l : List (Nat × α)} {e : Nat × α} (he : e ∈ assocSet k v l) :
    e = (k, v) ∨ e ∈ l := by
  induction l with
  | nil => simpa [assocSet] using he
  | cons f rest ih =>
    obtain ⟨j, w⟩ := f
    simp only [assocSet] at he
    split at he
    · rcases List.mem_cons.mp he with h | h
      · exact .inl h
      · exact .inr (List.mem_cons_of_mem _ h)
    · split at he
      · rcases List.mem_cons.mp he with h | h
        · exact .inl h
        · exact .inr h
      · rcases List.mem_cons.mp he with h | h
        · exact .inr (h ▸ List.mem_cons_self)
        · exact (ih h).imp id (List.mem_cons_of_mem _)

theorem assocGet_mem {k : Nat} {v : α} {l : List (Nat × α)} (h : assocGet k l = some v) : (k, v) ∈ l := by
  induction l with
  | nil => simp [assocGet] at h
  | cons e rest ih =>
    obtain ⟨j, w⟩ := e
    simp only [assocGet] at h
    split at h
    · simp_all
    · split at h
      · simp at h
      · exact List.mem_cons_of_mem _ (ih h)

/-- In a rising list every later key is larger than the first. -/
theorem keysRise_lt {j : Nat} {w : α} {l : List (Nat × α)} (h : keysRise ((j, w) :: l) = true) {e : Nat × α}
    (he : e ∈ l) : j < e.1 := by
  induction l generalizing j w with
  | nil => simp at he
  | cons f rest ih =>
    obtain ⟨k, u⟩ := f
    obtain ⟨h1, h2⟩ := keysRise_cons.mp h
    have hk : j < k := by simpa using h1
    rcases List.mem_cons.mp he with rfl | he
    · exact hk
    · exact Nat.lt_trans hk (ih h2 he)

/-- What a rising list lists is what it gives. -/
theorem assocGet_of_mem {k : Nat} {v : α} {l : List (Nat × α)} (hl : keysRise l = true) (h : (k, v) ∈ l) :
    assocGet k l = some v := by
  induction l with
  | nil => simp at h
  | cons e rest ih =>
    obtain ⟨j, w⟩ := e
    rcases List.mem_cons.mp h with h | h
    · cases h
      simp [assocGet]
    · have hlt : j < k := keysRise_lt hl h
      simp only [assocGet, Nat.ne_of_gt hlt, Nat.not_lt_of_gt hlt, if_false]
      exact ih (keysRise_cons.mp hl).2 h

/-! ## The matrix RAM -/

@[simp] theorem read_write_same (m : Memory) (addr : Nat) (b : Byte) : (m.write addr b).read addr = some b :=
  assocGet_assocSet_same addr b m

theorem read_write_other (m : Memory) {addr addr' : Nat} (h : addr' ≠ addr) (b : Byte) :
    (m.write addr b).read addr' = m.read addr' :=
  assocGet_assocSet_other h b m

@[simp] theorem read_empty (addr : Nat) : Memory.read [] addr = none := rfl

theorem wf_empty (nmax : Nat) : Memory.wf nmax [] = true := rfl

theorem wf_iff {nmax : Nat} {m : Memory} :
    Memory.wf nmax m = true ↔ keysRise m = true ∧ ∀ e ∈ m, isCellAddr nmax e.1 = true ∧ e.2.toNat < 4 := by
  simp [Memory.wf, List.all_eq_true]

/-- A write of a cell's byte to a cell's address keeps the canonical form. -/
theorem wf_write {nmax : Nat} {m : Memory} (hm : Memory.wf nmax m = true) {addr : Nat} (ha : isCellAddr nmax addr = true)
    {b : Byte} (hb : b.toNat < 4) : Memory.wf nmax (m.write addr b) = true := by
  obtain ⟨hk, he⟩ := wf_iff.mp hm
  refine wf_iff.mpr ⟨keysRise_assocSet addr b m hk, fun e hmem => ?_⟩
  rcases mem_assocSet hmem with h | h
  · subst h
    exact ⟨ha, hb⟩
  · exact he e h

/-! ## Cells -/

@[simp] theorem ofByte_toByte (c : QrCell) : QrCell.ofByte c.toByte = c := by
  obtain ⟨d, f⟩ := c
  cases d <;> cases f <;> rfl

theorem toByte_lt (c : QrCell) : c.toByte.toNat < 4 := by
  obtain ⟨d, f⟩ := c
  cases d <;> cases f <;> decide

theorem toByte_ofByte {b : Byte} (h : b.toNat < 4) : (QrCell.ofByte b).toByte = b := by
  have : b = 0#8 ∨ b = 1#8 ∨ b = 2#8 ∨ b = 3#8 := by
    rcases (by omega : b.toNat = 0 ∨ b.toNat = 1 ∨ b.toNat = 2 ∨ b.toNat = 3) with h | h | h | h
    · exact .inl (BitVec.eq_of_toNat_eq h)
    · exact .inr (.inl (BitVec.eq_of_toNat_eq h))
    · exact .inr (.inr (.inl (BitVec.eq_of_toNat_eq h)))
    · exact .inr (.inr (.inr (BitVec.eq_of_toNat_eq h)))
  rcases this with h | h | h | h <;> subst h <;> decide

theorem unwrittenByte_lt (k addr : Nat) : (unwrittenByte k addr).toNat < 4 := by
  have h := (Config.freeCell k addr).isLt
  simp only [unwrittenByte, BitVec.toNat_append]
  simpa using h

/-- A cell's byte holds FUNC and DARK and nothing else, written or not. -/
theorem byteAt_lt {s : State} {nmax : Nat} (hm : Memory.wf nmax s.mem = true) (addr : Nat) :
    (s.byteAt addr).toNat < 4 := by
  unfold State.byteAt
  split
  · rename_i b h
    exact ((wf_iff.mp hm).2 _ (assocGet_mem h)).2
  · exact unwrittenByte_lt _ _

/-- The address of an existing cell is an address of the matrix window. -/
theorem isCellAddr_cellAddr {nmax r c : Nat} (hn : nmax ≤ 256) (hr : r < nmax) (hc : c < nmax) :
    isCellAddr nmax (cellAddr r c) = true := by
  have e1 : rowOfAddr (cellAddr r c) = r := by simp only [cellAddr, rowOfAddr]; omega
  have e2 : colOfAddr (cellAddr r c) = c := by simp only [cellAddr, colOfAddr]; omega
  have b1 : 0x10000 ≤ cellAddr r c := by simp only [cellAddr]; omega
  have b2 : cellAddr r c ≤ 0x4FFFC := by simp only [cellAddr]; omega
  have b3 : cellAddr r c % 4 = 0 := by simp only [cellAddr]; omega
  simp [isCellAddr, e1, e2, b1, b2, b3, hr, hc]

theorem rowOfAddr_cellAddr {r c : Nat} (hr : r < 256) (hc : c < 256) : rowOfAddr (cellAddr r c) = r := by
  simp only [cellAddr, rowOfAddr]
  omega

theorem colOfAddr_cellAddr {r c : Nat} (hc : c < 256) : colOfAddr (cellAddr r c) = c := by
  simp only [cellAddr, colOfAddr]
  omega

/-- Two cells with columns below 256 have different addresses. -/
theorem cellAddr_inj {r c r' c' : Nat} (hc : c < 256) (hc' : c' < 256) (h : cellAddr r c = cellAddr r' c') :
    r = r' ∧ c = c' := by
  simp only [cellAddr] at h
  omega

/-- An address of the matrix window is the address of the cell it selects. -/
theorem cellAddr_of_isCellAddr {nmax addr : Nat} (h : isCellAddr nmax addr = true) :
    cellAddr (rowOfAddr addr) (colOfAddr addr) = addr := by
  simp only [isCellAddr, cellAddr, rowOfAddr, colOfAddr, Bool.and_eq_true, beq_iff_eq, decide_eq_true_eq] at *
  omega

end Sys2Proof.Machine
end

