-- ==== Sys2Proof/Laws/State.lean ====
section
/-! SUPPORT. What each named update of the state does to each field, one lemma per field per update, each true by
unfolding the update once. -/

namespace Sys2Proof.Machine

/-! ## `complete` -/

@[simp] theorem complete_params (code : ResultCode) (op : Byte) (s : State) :
    (complete code op s).params = s.params := rfl
@[simp] theorem complete_ieDone (code : ResultCode) (op : Byte) (s : State) :
    (complete code op s).ieDone = s.ieDone := rfl
@[simp] theorem complete_ieErr (code : ResultCode) (op : Byte) (s : State) :
    (complete code op s).ieErr = s.ieErr := rfl
@[simp] theorem complete_err (code : ResultCode) (op : Byte) (s : State) : (complete code op s).err = code := rfl
@[simp] theorem complete_lastOp (code : ResultCode) (op : Byte) (s : State) : (complete code op s).lastOp = op := rfl
@[simp] theorem complete_irqDone (code : ResultCode) (op : Byte) (s : State) :
    (complete code op s).irqDone = true := rfl
@[simp] theorem complete_irqErr (code : ResultCode) (op : Byte) (s : State) :
    (complete code op s).irqErr = (s.irqErr || decide (code ≠ .ok)) := rfl
@[simp] theorem complete_inflight (code : ResultCode) (op : Byte) (s : State) :
    (complete code op s).inflight = none := rfl
@[simp] theorem complete_result (code : ResultCode) (op : Byte) (s : State) :
    (complete code op s).result = s.result := rfl
@[simp] theorem complete_resultAux (code : ResultCode) (op : Byte) (s : State) :
    (complete code op s).resultAux = s.resultAux := rfl
@[simp] theorem complete_ecLen (code : ResultCode) (op : Byte) (s : State) :
    (complete code op s).ecLen = s.ecLen := rfl
@[simp] theorem complete_version (code : ResultCode) (op : Byte) (s : State) :
    (complete code op s).version = s.version := rfl
@[simp] theorem complete_feedCnt (code : ResultCode) (op : Byte) (s : State) :
    (complete code op s).feedCnt = s.feedCnt := rfl
@[simp] theorem complete_selMask (code : ResultCode) (op : Byte) (s : State) :
    (complete code op s).selMask = s.selMask := rfl
@[simp] theorem complete_selValid (code : ResultCode) (op : Byte) (s : State) :
    (complete code op s).selValid = s.selValid := rfl
@[simp] theorem complete_bestScore (code : ResultCode) (op : Byte) (s : State) :
    (complete code op s).bestScore = s.bestScore := rfl
@[simp] theorem complete_gen (code : ResultCode) (op : Byte) (s : State) : (complete code op s).gen = s.gen := rfl
@[simp] theorem complete_rem (code : ResultCode) (op : Byte) (s : State) : (complete code op s).rem = s.rem := rfl
@[simp] theorem complete_score (code : ResultCode) (op : Byte) (s : State) :
    (complete code op s).score = s.score := rfl
@[simp] theorem complete_pen (code : ResultCode) (op : Byte) (s : State) : (complete code op s).pen = s.pen := rfl
@[simp] theorem complete_mem (code : ResultCode) (op : Byte) (s : State) : (complete code op s).mem = s.mem := rfl
@[simp] theorem complete_resets (code : ResultCode) (op : Byte) (s : State) :
    (complete code op s).resets = s.resets := rfl
@[simp] theorem complete_draws (code : ResultCode) (op : Byte) (s : State) :
    (complete code op s).draws = s.draws := rfl
@[simp] theorem complete_schedule (code : ResultCode) (op : Byte) (s : State) :
    (complete code op s).schedule = s.schedule := rfl
@[simp] theorem complete_hostProg (code : ResultCode) (op : Byte) (s : State) :
    (complete code op s).hostProg = s.hostProg := rfl
@[simp] theorem complete_hostPc (code : ResultCode) (op : Byte) (s : State) :
    (complete code op s).hostPc = s.hostPc := rfl
@[simp] theorem complete_temps (code : ResultCode) (op : Byte) (s : State) :
    (complete code op s).temps = s.temps := rfl
@[simp] theorem complete_resp (code : ResultCode) (op : Byte) (s : State) : (complete code op s).resp = s.resp := rfl

/-! ## `resetBlock` -/

@[simp] theorem resetBlock_params (s : State) : (resetBlock s).params = s.params := rfl
@[simp] theorem resetBlock_ieDone (s : State) : (resetBlock s).ieDone = false := rfl
@[simp] theorem resetBlock_ieErr (s : State) : (resetBlock s).ieErr = false := rfl
@[simp] theorem resetBlock_err (s : State) : (resetBlock s).err = .ok := rfl
@[simp] theorem resetBlock_lastOp (s : State) : (resetBlock s).lastOp = 0#8 := rfl
@[simp] theorem resetBlock_irqDone (s : State) : (resetBlock s).irqDone = false := rfl
@[simp] theorem resetBlock_irqErr (s : State) : (resetBlock s).irqErr = false := rfl
@[simp] theorem resetBlock_inflight (s : State) : (resetBlock s).inflight = none := rfl
@[simp] theorem resetBlock_result (s : State) : (resetBlock s).result = 0#32 := rfl
@[simp] theorem resetBlock_resultAux (s : State) : (resetBlock s).resultAux = 0#32 := rfl
@[simp] theorem resetBlock_ecLen (s : State) : (resetBlock s).ecLen = 0#8 := rfl
@[simp] theorem resetBlock_version (s : State) : (resetBlock s).version = 0#8 := rfl
@[simp] theorem resetBlock_feedCnt (s : State) : (resetBlock s).feedCnt = 0#16 := rfl
@[simp] theorem resetBlock_selMask (s : State) : (resetBlock s).selMask = 0#3 := rfl
@[simp] theorem resetBlock_selValid (s : State) : (resetBlock s).selValid = false := rfl
@[simp] theorem resetBlock_bestScore (s : State) : (resetBlock s).bestScore = 0#32 := rfl
@[simp] theorem resetBlock_gen (s : State) : (resetBlock s).gen = List.replicate s.params.maxEc.toNat 0#8 := rfl
@[simp] theorem resetBlock_rem (s : State) : (resetBlock s).rem = List.replicate s.params.maxEc.toNat 0#8 := rfl
@[simp] theorem resetBlock_score (s : State) : (resetBlock s).score = Vector.replicate 8 0#32 := rfl
@[simp] theorem resetBlock_pen (s : State) : (resetBlock s).pen = Vector.replicate 8 (Vector.replicate 4 0#32) := rfl
@[simp] theorem resetBlock_mem (s : State) : (resetBlock s).mem = [] := rfl
@[simp] theorem resetBlock_resets (s : State) : (resetBlock s).resets = s.resets + 1 := rfl
@[simp] theorem resetBlock_draws (s : State) : (resetBlock s).draws = s.draws := rfl
@[simp] theorem resetBlock_schedule (s : State) : (resetBlock s).schedule = s.schedule := rfl
@[simp] theorem resetBlock_hostProg (s : State) : (resetBlock s).hostProg = s.hostProg := rfl
@[simp] theorem resetBlock_hostPc (s : State) : (resetBlock s).hostPc = s.hostPc := rfl
@[simp] theorem resetBlock_temps (s : State) : (resetBlock s).temps = s.temps := rfl
@[simp] theorem resetBlock_resp (s : State) : (resetBlock s).resp = s.resp := rfl

/-! ## `popMove` -/

@[simp] theorem popMove_params (s : State) : (popMove s).params = s.params := rfl
@[simp] theorem popMove_ieDone (s : State) : (popMove s).ieDone = s.ieDone := rfl
@[simp] theorem popMove_ieErr (s : State) : (popMove s).ieErr = s.ieErr := rfl
@[simp] theorem popMove_err (s : State) : (popMove s).err = s.err := rfl
@[simp] theorem popMove_lastOp (s : State) : (popMove s).lastOp = s.lastOp := rfl
@[simp] theorem popMove_irqDone (s : State) : (popMove s).irqDone = s.irqDone := rfl
@[simp] theorem popMove_irqErr (s : State) : (popMove s).irqErr = s.irqErr := rfl
@[simp] theorem popMove_inflight (s : State) : (popMove s).inflight = s.inflight := rfl
@[simp] theorem popMove_result (s : State) : (popMove s).result = s.result := rfl
@[simp] theorem popMove_resultAux (s : State) : (popMove s).resultAux = s.resultAux := rfl
@[simp] theorem popMove_ecLen (s : State) : (popMove s).ecLen = s.ecLen := rfl
@[simp] theorem popMove_version (s : State) : (popMove s).version = s.version := rfl
@[simp] theorem popMove_feedCnt (s : State) : (popMove s).feedCnt = s.feedCnt := rfl
@[simp] theorem popMove_selMask (s : State) : (popMove s).selMask = s.selMask := rfl
@[simp] theorem popMove_selValid (s : State) : (popMove s).selValid = s.selValid := rfl
@[simp] theorem popMove_bestScore (s : State) : (popMove s).bestScore = s.bestScore := rfl
@[simp] theorem popMove_gen (s : State) : (popMove s).gen = s.gen := rfl
@[simp] theorem popMove_rem (s : State) : (popMove s).rem = s.rem := rfl
@[simp] theorem popMove_score (s : State) : (popMove s).score = s.score := rfl
@[simp] theorem popMove_pen (s : State) : (popMove s).pen = s.pen := rfl
@[simp] theorem popMove_mem (s : State) : (popMove s).mem = s.mem := rfl
@[simp] theorem popMove_resets (s : State) : (popMove s).resets = s.resets := rfl
@[simp] theorem popMove_draws (s : State) : (popMove s).draws = s.draws := rfl
@[simp] theorem popMove_schedule (s : State) : (popMove s).schedule = s.schedule.tail := rfl
@[simp] theorem popMove_hostProg (s : State) : (popMove s).hostProg = s.hostProg := rfl
@[simp] theorem popMove_hostPc (s : State) : (popMove s).hostPc = s.hostPc := rfl
@[simp] theorem popMove_temps (s : State) : (popMove s).temps = s.temps := rfl
@[simp] theorem popMove_resp (s : State) : (popMove s).resp = s.resp := rfl

/-! ## `loadCommand` -/

@[simp] theorem loadCommand_params (w : Word) (s : State) : (loadCommand w s).params = s.params := rfl
@[simp] theorem loadCommand_ieDone (w : Word) (s : State) : (loadCommand w s).ieDone = s.ieDone := rfl
@[simp] theorem loadCommand_ieErr (w : Word) (s : State) : (loadCommand w s).ieErr = s.ieErr := rfl
@[simp] theorem loadCommand_err (w : Word) (s : State) : (loadCommand w s).err = s.err := rfl
@[simp] theorem loadCommand_lastOp (w : Word) (s : State) : (loadCommand w s).lastOp = s.lastOp := rfl
@[simp] theorem loadCommand_irqDone (w : Word) (s : State) : (loadCommand w s).irqDone = s.irqDone := rfl
@[simp] theorem loadCommand_irqErr (w : Word) (s : State) : (loadCommand w s).irqErr = s.irqErr := rfl
@[simp] theorem loadCommand_inflight (w : Word) (s : State) : (loadCommand w s).inflight = some w := rfl
@[simp] theorem loadCommand_result (w : Word) (s : State) : (loadCommand w s).result = s.result := rfl
@[simp] theorem loadCommand_resultAux (w : Word) (s : State) : (loadCommand w s).resultAux = s.resultAux := rfl
@[simp] theorem loadCommand_ecLen (w : Word) (s : State) : (loadCommand w s).ecLen = s.ecLen := rfl
@[simp] theorem loadCommand_version (w : Word) (s : State) : (loadCommand w s).version = s.version := rfl
@[simp] theorem loadCommand_feedCnt (w : Word) (s : State) : (loadCommand w s).feedCnt = s.feedCnt := rfl
@[simp] theorem loadCommand_selMask (w : Word) (s : State) : (loadCommand w s).selMask = s.selMask := rfl
@[simp] theorem loadCommand_selValid (w : Word) (s : State) : (loadCommand w s).selValid = s.selValid := rfl
@[simp] theorem loadCommand_bestScore (w : Word) (s : State) : (loadCommand w s).bestScore = s.bestScore := rfl
@[simp] theorem loadCommand_gen (w : Word) (s : State) : (loadCommand w s).gen = s.gen := rfl
@[simp] theorem loadCommand_rem (w : Word) (s : State) : (loadCommand w s).rem = s.rem := rfl
@[simp] theorem loadCommand_score (w : Word) (s : State) : (loadCommand w s).score = s.score := rfl
@[simp] theorem loadCommand_pen (w : Word) (s : State) : (loadCommand w s).pen = s.pen := rfl
@[simp] theorem loadCommand_mem (w : Word) (s : State) : (loadCommand w s).mem = s.mem := rfl
@[simp] theorem loadCommand_resets (w : Word) (s : State) : (loadCommand w s).resets = s.resets := rfl
@[simp] theorem loadCommand_draws (w : Word) (s : State) : (loadCommand w s).draws = s.draws := rfl
@[simp] theorem loadCommand_schedule (w : Word) (s : State) : (loadCommand w s).schedule = [] := rfl
@[simp] theorem loadCommand_hostProg (w : Word) (s : State) : (loadCommand w s).hostProg = s.hostProg := rfl
@[simp] theorem loadCommand_hostPc (w : Word) (s : State) : (loadCommand w s).hostPc = s.hostPc := rfl
@[simp] theorem loadCommand_temps (w : Word) (s : State) : (loadCommand w s).temps = s.temps := rfl
@[simp] theorem loadCommand_resp (w : Word) (s : State) : (loadCommand w s).resp = s.resp := rfl

/-! ## `setResult` -/

@[simp] theorem setResult_params (x y : Word) (s : State) : (setResult x y s).params = s.params := rfl
@[simp] theorem setResult_ieDone (x y : Word) (s : State) : (setResult x y s).ieDone = s.ieDone := rfl
@[simp] theorem setResult_ieErr (x y : Word) (s : State) : (setResult x y s).ieErr = s.ieErr := rfl
@[simp] theorem setResult_err (x y : Word) (s : State) : (setResult x y s).err = s.err := rfl
@[simp] theorem setResult_lastOp (x y : Word) (s : State) : (setResult x y s).lastOp = s.lastOp := rfl
@[simp] theorem setResult_irqDone (x y : Word) (s : State) : (setResult x y s).irqDone = s.irqDone := rfl
@[simp] theorem setResult_irqErr (x y : Word) (s : State) : (setResult x y s).irqErr = s.irqErr := rfl
@[simp] theorem setResult_inflight (x y : Word) (s : State) : (setResult x y s).inflight = s.inflight := rfl
@[simp] theorem setResult_result (x y : Word) (s : State) : (setResult x y s).result = x := rfl
@[simp] theorem setResult_resultAux (x y : Word) (s : State) : (setResult x y s).resultAux = y := rfl
@[simp] theorem setResult_ecLen (x y : Word) (s : State) : (setResult x y s).ecLen = s.ecLen := rfl
@[simp] theorem setResult_version (x y : Word) (s : State) : (setResult x y s).version = s.version := rfl
@[simp] theorem setResult_feedCnt (x y : Word) (s : State) : (setResult x y s).feedCnt = s.feedCnt := rfl
@[simp] theorem setResult_selMask (x y : Word) (s : State) : (setResult x y s).selMask = s.selMask := rfl
@[simp] theorem setResult_selValid (x y : Word) (s : State) : (setResult x y s).selValid = s.selValid := rfl
@[simp] theorem setResult_bestScore (x y : Word) (s : State) : (setResult x y s).bestScore = s.bestScore := rfl
@[simp] theorem setResult_gen (x y : Word) (s : State) : (setResult x y s).gen = s.gen := rfl
@[simp] theorem setResult_rem (x y : Word) (s : State) : (setResult x y s).rem = s.rem := rfl
@[simp] theorem setResult_score (x y : Word) (s : State) : (setResult x y s).score = s.score := rfl
@[simp] theorem setResult_pen (x y : Word) (s : State) : (setResult x y s).pen = s.pen := rfl
@[simp] theorem setResult_mem (x y : Word) (s : State) : (setResult x y s).mem = s.mem := rfl
@[simp] theorem setResult_resets (x y : Word) (s : State) : (setResult x y s).resets = s.resets := rfl
@[simp] theorem setResult_draws (x y : Word) (s : State) : (setResult x y s).draws = s.draws := rfl
@[simp] theorem setResult_schedule (x y : Word) (s : State) : (setResult x y s).schedule = s.schedule := rfl
@[simp] theorem setResult_hostProg (x y : Word) (s : State) : (setResult x y s).hostProg = s.hostProg := rfl
@[simp] theorem setResult_hostPc (x y : Word) (s : State) : (setResult x y s).hostPc = s.hostPc := rfl
@[simp] theorem setResult_temps (x y : Word) (s : State) : (setResult x y s).temps = s.temps := rfl
@[simp] theorem setResult_resp (x y : Word) (s : State) : (setResult x y s).resp = s.resp := rfl

/-! ## `setVersion` -/

@[simp] theorem setVersion_params (v : Byte) (s : State) : (setVersion v s).params = s.params := rfl
@[simp] theorem setVersion_ieDone (v : Byte) (s : State) : (setVersion v s).ieDone = s.ieDone := rfl
@[simp] theorem setVersion_ieErr (v : Byte) (s : State) : (setVersion v s).ieErr = s.ieErr := rfl
@[simp] theorem setVersion_err (v : Byte) (s : State) : (setVersion v s).err = s.err := rfl
@[simp] theorem setVersion_lastOp (v : Byte) (s : State) : (setVersion v s).lastOp = s.lastOp := rfl
@[simp] theorem setVersion_irqDone (v : Byte) (s : State) : (setVersion v s).irqDone = s.irqDone := rfl
@[simp] theorem setVersion_irqErr (v : Byte) (s : State) : (setVersion v s).irqErr = s.irqErr := rfl
@[simp] theorem setVersion_inflight (v : Byte) (s : State) : (setVersion v s).inflight = s.inflight := rfl
@[simp] theorem setVersion_result (v : Byte) (s : State) : (setVersion v s).result = s.result := rfl
@[simp] theorem setVersion_resultAux (v : Byte) (s : State) : (setVersion v s).resultAux = s.resultAux := rfl
@[simp] theorem setVersion_ecLen (v : Byte) (s : State) : (setVersion v s).ecLen = s.ecLen := rfl
@[simp] theorem setVersion_version (v : Byte) (s : State) : (setVersion v s).version = v := rfl
@[simp] theorem setVersion_feedCnt (v : Byte) (s : State) : (setVersion v s).feedCnt = s.feedCnt := rfl
@[simp] theorem setVersion_selMask (v : Byte) (s : State) : (setVersion v s).selMask = s.selMask := rfl
@[simp] theorem setVersion_selValid (v : Byte) (s : State) : (setVersion v s).selValid = false := rfl
@[simp] theorem setVersion_bestScore (v : Byte) (s : State) : (setVersion v s).bestScore = s.bestScore := rfl
@[simp] theorem setVersion_gen (v : Byte) (s : State) : (setVersion v s).gen = s.gen := rfl
@[simp] theorem setVersion_rem (v : Byte) (s : State) : (setVersion v s).rem = s.rem := rfl
@[simp] theorem setVersion_score (v : Byte) (s : State) : (setVersion v s).score = s.score := rfl
@[simp] theorem setVersion_pen (v : Byte) (s : State) : (setVersion v s).pen = s.pen := rfl
@[simp] theorem setVersion_mem (v : Byte) (s : State) : (setVersion v s).mem = s.mem := rfl
@[simp] theorem setVersion_resets (v : Byte) (s : State) : (setVersion v s).resets = s.resets := rfl
@[simp] theorem setVersion_draws (v : Byte) (s : State) : (setVersion v s).draws = s.draws := rfl
@[simp] theorem setVersion_schedule (v : Byte) (s : State) : (setVersion v s).schedule = s.schedule := rfl
@[simp] theorem setVersion_hostProg (v : Byte) (s : State) : (setVersion v s).hostProg = s.hostProg := rfl
@[simp] theorem setVersion_hostPc (v : Byte) (s : State) : (setVersion v s).hostPc = s.hostPc := rfl
@[simp] theorem setVersion_temps (v : Byte) (s : State) : (setVersion v s).temps = s.temps := rfl
@[simp] theorem setVersion_resp (v : Byte) (s : State) : (setVersion v s).resp = s.resp := rfl

/-! ## `clearRem` -/

@[simp] theorem clearRem_params (s : State) : (clearRem s).params = s.params := rfl
@[simp] theorem clearRem_ieDone (s : State) : (clearRem s).ieDone = s.ieDone := rfl
@[simp] theorem clearRem_ieErr (s : State) : (clearRem s).ieErr = s.ieErr := rfl
@[simp] theorem clearRem_err (s : State) : (clearRem s).err = s.err := rfl
@[simp] theorem clearRem_lastOp (s : State) : (clearRem s).lastOp = s.lastOp := rfl
@[simp] theorem clearRem_irqDone (s : State) : (clearRem s).irqDone = s.irqDone := rfl
@[simp] theorem clearRem_irqErr (s : State) : (clearRem s).irqErr = s.irqErr := rfl
@[simp] theorem clearRem_inflight (s : State) : (clearRem s).inflight = s.inflight := rfl
@[simp] theorem clearRem_result (s : State) : (clearRem s).result = s.result := rfl
@[simp] theorem clearRem_resultAux (s : State) : (clearRem s).resultAux = s.resultAux := rfl
@[simp] theorem clearRem_ecLen (s : State) : (clearRem s).ecLen = s.ecLen := rfl
@[simp] theorem clearRem_version (s : State) : (clearRem s).version = s.version := rfl
@[simp] theorem clearRem_feedCnt (s : State) : (clearRem s).feedCnt = 0#16 := rfl
@[simp] theorem clearRem_selMask (s : State) : (clearRem s).selMask = s.selMask := rfl
@[simp] theorem clearRem_selValid (s : State) : (clearRem s).selValid = s.selValid := rfl
@[simp] theorem clearRem_bestScore (s : State) : (clearRem s).bestScore = s.bestScore := rfl
@[simp] theorem clearRem_gen (s : State) : (clearRem s).gen = s.gen := rfl
@[simp] theorem clearRem_rem (s : State) : (clearRem s).rem = List.replicate s.params.maxEc.toNat 0#8 := rfl
@[simp] theorem clearRem_score (s : State) : (clearRem s).score = s.score := rfl
@[simp] theorem clearRem_pen (s : State) : (clearRem s).pen = s.pen := rfl
@[simp] theorem clearRem_mem (s : State) : (clearRem s).mem = s.mem := rfl
@[simp] theorem clearRem_resets (s : State) : (clearRem s).resets = s.resets := rfl
@[simp] theorem clearRem_draws (s : State) : (clearRem s).draws = s.draws := rfl
@[simp] theorem clearRem_schedule (s : State) : (clearRem s).schedule = s.schedule := rfl
@[simp] theorem clearRem_hostProg (s : State) : (clearRem s).hostProg = s.hostProg := rfl
@[simp] theorem clearRem_hostPc (s : State) : (clearRem s).hostPc = s.hostPc := rfl
@[simp] theorem clearRem_temps (s : State) : (clearRem s).temps = s.temps := rfl
@[simp] theorem clearRem_resp (s : State) : (clearRem s).resp = s.resp := rfl

/-! ## `rsSetup` -/

@[simp] theorem rsSetup_params (n : Byte) (s : State) : (rsSetup n s).params = s.params := rfl
@[simp] theorem rsSetup_ieDone (n : Byte) (s : State) : (rsSetup n s).ieDone = s.ieDone := rfl
@[simp] theorem rsSetup_ieErr (n : Byte) (s : State) : (rsSetup n s).ieErr = s.ieErr := rfl
@[simp] theorem rsSetup_err (n : Byte) (s : State) : (rsSetup n s).err = s.err := rfl
@[simp] theorem rsSetup_lastOp (n : Byte) (s : State) : (rsSetup n s).lastOp = s.lastOp := rfl
@[simp] theorem rsSetup_irqDone (n : Byte) (s : State) : (rsSetup n s).irqDone = s.irqDone := rfl
@[simp] theorem rsSetup_irqErr (n : Byte) (s : State) : (rsSetup n s).irqErr = s.irqErr := rfl
@[simp] theorem rsSetup_inflight (n : Byte) (s : State) : (rsSetup n s).inflight = s.inflight := rfl
@[simp] theorem rsSetup_result (n : Byte) (s : State) : (rsSetup n s).result = s.result := rfl
@[simp] theorem rsSetup_resultAux (n : Byte) (s : State) : (rsSetup n s).resultAux = s.resultAux := rfl
@[simp] theorem rsSetup_ecLen (n : Byte) (s : State) : (rsSetup n s).ecLen = n := rfl
@[simp] theorem rsSetup_version (n : Byte) (s : State) : (rsSetup n s).version = s.version := rfl
@[simp] theorem rsSetup_feedCnt (n : Byte) (s : State) : (rsSetup n s).feedCnt = 0#16 := rfl
@[simp] theorem rsSetup_selMask (n : Byte) (s : State) : (rsSetup n s).selMask = s.selMask := rfl
@[simp] theorem rsSetup_selValid (n : Byte) (s : State) : (rsSetup n s).selValid = s.selValid := rfl
@[simp] theorem rsSetup_bestScore (n : Byte) (s : State) : (rsSetup n s).bestScore = s.bestScore := rfl
@[simp] theorem rsSetup_gen (n : Byte) (s : State) :
    (rsSetup n s).gen = genRegs s.params.maxEc.toNat n.toNat := rfl
@[simp] theorem rsSetup_rem (n : Byte) (s : State) :
    (rsSetup n s).rem = List.replicate s.params.maxEc.toNat 0#8 := rfl
@[simp] theorem rsSetup_score (n : Byte) (s : State) : (rsSetup n s).score = s.score := rfl
@[simp] theorem rsSetup_pen (n : Byte) (s : State) : (rsSetup n s).pen = s.pen := rfl
@[simp] theorem rsSetup_mem (n : Byte) (s : State) : (rsSetup n s).mem = s.mem := rfl
@[simp] theorem rsSetup_resets (n : Byte) (s : State) : (rsSetup n s).resets = s.resets := rfl
@[simp] theorem rsSetup_draws (n : Byte) (s : State) : (rsSetup n s).draws = s.draws := rfl
@[simp] theorem rsSetup_schedule (n : Byte) (s : State) : (rsSetup n s).schedule = s.schedule := rfl
@[simp] theorem rsSetup_hostProg (n : Byte) (s : State) : (rsSetup n s).hostProg = s.hostProg := rfl
@[simp] theorem rsSetup_hostPc (n : Byte) (s : State) : (rsSetup n s).hostPc = s.hostPc := rfl
@[simp] theorem rsSetup_temps (n : Byte) (s : State) : (rsSetup n s).temps = s.temps := rfl
@[simp] theorem rsSetup_resp (n : Byte) (s : State) : (rsSetup n s).resp = s.resp := rfl

/-! ## `rsFeed` -/

@[simp] theorem rsFeed_params (d : Byte) (s : State) : (rsFeed d s).params = s.params := rfl
@[simp] theorem rsFeed_ieDone (d : Byte) (s : State) : (rsFeed d s).ieDone = s.ieDone := rfl
@[simp] theorem rsFeed_ieErr (d : Byte) (s : State) : (rsFeed d s).ieErr = s.ieErr := rfl
@[simp] theorem rsFeed_err (d : Byte) (s : State) : (rsFeed d s).err = s.err := rfl
@[simp] theorem rsFeed_lastOp (d : Byte) (s : State) : (rsFeed d s).lastOp = s.lastOp := rfl
@[simp] theorem rsFeed_irqDone (d : Byte) (s : State) : (rsFeed d s).irqDone = s.irqDone := rfl
@[simp] theorem rsFeed_irqErr (d : Byte) (s : State) : (rsFeed d s).irqErr = s.irqErr := rfl
@[simp] theorem rsFeed_inflight (d : Byte) (s : State) : (rsFeed d s).inflight = s.inflight := rfl
@[simp] theorem rsFeed_result (d : Byte) (s : State) : (rsFeed d s).result = s.result := rfl
@[simp] theorem rsFeed_resultAux (d : Byte) (s : State) : (rsFeed d s).resultAux = s.resultAux := rfl
@[simp] theorem rsFeed_ecLen (d : Byte) (s : State) : (rsFeed d s).ecLen = s.ecLen := rfl
@[simp] theorem rsFeed_version (d : Byte) (s : State) : (rsFeed d s).version = s.version := rfl
@[simp] theorem rsFeed_feedCnt (d : Byte) (s : State) : (rsFeed d s).feedCnt = s.feedCnt + 1#16 := rfl
@[simp] theorem rsFeed_selMask (d : Byte) (s : State) : (rsFeed d s).selMask = s.selMask := rfl
@[simp] theorem rsFeed_selValid (d : Byte) (s : State) : (rsFeed d s).selValid = s.selValid := rfl
@[simp] theorem rsFeed_bestScore (d : Byte) (s : State) : (rsFeed d s).bestScore = s.bestScore := rfl
@[simp] theorem rsFeed_gen (d : Byte) (s : State) : (rsFeed d s).gen = s.gen := rfl
@[simp] theorem rsFeed_rem (d : Byte) (s : State) : (rsFeed d s).rem = rsStep s.ecLen.toNat s.gen s.rem d := rfl
@[simp] theorem rsFeed_score (d : Byte) (s : State) : (rsFeed d s).score = s.score := rfl
@[simp] theorem rsFeed_pen (d : Byte) (s : State) : (rsFeed d s).pen = s.pen := rfl
@[simp] theorem rsFeed_mem (d : Byte) (s : State) : (rsFeed d s).mem = s.mem := rfl
@[simp] theorem rsFeed_resets (d : Byte) (s : State) : (rsFeed d s).resets = s.resets := rfl
@[simp] theorem rsFeed_draws (d : Byte) (s : State) : (rsFeed d s).draws = s.draws := rfl
@[simp] theorem rsFeed_schedule (d : Byte) (s : State) : (rsFeed d s).schedule = s.schedule := rfl
@[simp] theorem rsFeed_hostProg (d : Byte) (s : State) : (rsFeed d s).hostProg = s.hostProg := rfl
@[simp] theorem rsFeed_hostPc (d : Byte) (s : State) : (rsFeed d s).hostPc = s.hostPc := rfl
@[simp] theorem rsFeed_temps (d : Byte) (s : State) : (rsFeed d s).temps = s.temps := rfl
@[simp] theorem rsFeed_resp (d : Byte) (s : State) : (rsFeed d s).resp = s.resp := rfl

/-! ## `scoreInto` -/

@[simp] theorem scoreInto_params (cells : List (List QrCell)) (m : MaskId) (s : State) :
    (scoreInto cells m s).params = s.params := rfl
@[simp] theorem scoreInto_ieDone (cells : List (List QrCell)) (m : MaskId) (s : State) :
    (scoreInto cells m s).ieDone = s.ieDone := rfl
@[simp] theorem scoreInto_ieErr (cells : List (List QrCell)) (m : MaskId) (s : State) :
    (scoreInto cells m s).ieErr = s.ieErr := rfl
@[simp] theorem scoreInto_err (cells : List (List QrCell)) (m : MaskId) (s : State) :
    (scoreInto cells m s).err = s.err := rfl
@[simp] theorem scoreInto_lastOp (cells : List (List QrCell)) (m : MaskId) (s : State) :
    (scoreInto cells m s).lastOp = s.lastOp := rfl
@[simp] theorem scoreInto_irqDone (cells : List (List QrCell)) (m : MaskId) (s : State) :
    (scoreInto cells m s).irqDone = s.irqDone := rfl
@[simp] theorem scoreInto_irqErr (cells : List (List QrCell)) (m : MaskId) (s : State) :
    (scoreInto cells m s).irqErr = s.irqErr := rfl
@[simp] theorem scoreInto_inflight (cells : List (List QrCell)) (m : MaskId) (s : State) :
    (scoreInto cells m s).inflight = s.inflight := rfl
@[simp] theorem scoreInto_result (cells : List (List QrCell)) (m : MaskId) (s : State) :
    (scoreInto cells m s).result = s.result := rfl
@[simp] theorem scoreInto_resultAux (cells : List (List QrCell)) (m : MaskId) (s : State) :
    (scoreInto cells m s).resultAux = s.resultAux := rfl
@[simp] theorem scoreInto_ecLen (cells : List (List QrCell)) (m : MaskId) (s : State) :
    (scoreInto cells m s).ecLen = s.ecLen := rfl
@[simp] theorem scoreInto_version (cells : List (List QrCell)) (m : MaskId) (s : State) :
    (scoreInto cells m s).version = s.version := rfl
@[simp] theorem scoreInto_feedCnt (cells : List (List QrCell)) (m : MaskId) (s : State) :
    (scoreInto cells m s).feedCnt = s.feedCnt := rfl
@[simp] theorem scoreInto_selMask (cells : List (List QrCell)) (m : MaskId) (s : State) :
    (scoreInto cells m s).selMask = s.selMask := rfl
@[simp] theorem scoreInto_selValid (cells : List (List QrCell)) (m : MaskId) (s : State) :
    (scoreInto cells m s).selValid = s.selValid := rfl
@[simp] theorem scoreInto_bestScore (cells : List (List QrCell)) (m : MaskId) (s : State) :
    (scoreInto cells m s).bestScore = s.bestScore := rfl
@[simp] theorem scoreInto_gen (cells : List (List QrCell)) (m : MaskId) (s : State) :
    (scoreInto cells m s).gen = s.gen := rfl
@[simp] theorem scoreInto_rem (cells : List (List QrCell)) (m : MaskId) (s : State) :
    (scoreInto cells m s).rem = s.rem := rfl
@[simp] theorem scoreInto_score (cells : List (List QrCell)) (m : MaskId) (s : State) :
    (scoreInto cells m s).score = s.score.set m.toNat (BitVec.ofNat 32 (totalPenalty (candidate m cells))) m.isLt := rfl
@[simp] theorem scoreInto_pen (cells : List (List QrCell)) (m : MaskId) (s : State) :
    (scoreInto cells m s).pen = s.pen.set m.toNat (penaltyWords (candidate m cells)) m.isLt := rfl
@[simp] theorem scoreInto_mem (cells : List (List QrCell)) (m : MaskId) (s : State) :
    (scoreInto cells m s).mem = s.mem := rfl
@[simp] theorem scoreInto_resets (cells : List (List QrCell)) (m : MaskId) (s : State) :
    (scoreInto cells m s).resets = s.resets := rfl
@[simp] theorem scoreInto_draws (cells : List (List QrCell)) (m : MaskId) (s : State) :
    (scoreInto cells m s).draws = s.draws := rfl
@[simp] theorem scoreInto_schedule (cells : List (List QrCell)) (m : MaskId) (s : State) :
    (scoreInto cells m s).schedule = s.schedule := rfl
@[simp] theorem scoreInto_hostProg (cells : List (List QrCell)) (m : MaskId) (s : State) :
    (scoreInto cells m s).hostProg = s.hostProg := rfl
@[simp] theorem scoreInto_hostPc (cells : List (List QrCell)) (m : MaskId) (s : State) :
    (scoreInto cells m s).hostPc = s.hostPc := rfl
@[simp] theorem scoreInto_temps (cells : List (List QrCell)) (m : MaskId) (s : State) :
    (scoreInto cells m s).temps = s.temps := rfl
@[simp] theorem scoreInto_resp (cells : List (List QrCell)) (m : MaskId) (s : State) :
    (scoreInto cells m s).resp = s.resp := rfl

/-! ## `selectBest` -/

@[simp] theorem selectBest_params (s : State) : (selectBest s).params = s.params := rfl
@[simp] theorem selectBest_ieDone (s : State) : (selectBest s).ieDone = s.ieDone := rfl
@[simp] theorem selectBest_ieErr (s : State) : (selectBest s).ieErr = s.ieErr := rfl
@[simp] theorem selectBest_err (s : State) : (selectBest s).err = s.err := rfl
@[simp] theorem selectBest_lastOp (s : State) : (selectBest s).lastOp = s.lastOp := rfl
@[simp] theorem selectBest_irqDone (s : State) : (selectBest s).irqDone = s.irqDone := rfl
@[simp] theorem selectBest_irqErr (s : State) : (selectBest s).irqErr = s.irqErr := rfl
@[simp] theorem selectBest_inflight (s : State) : (selectBest s).inflight = s.inflight := rfl
@[simp] theorem selectBest_result (s : State) : (selectBest s).result = s.result := rfl
@[simp] theorem selectBest_resultAux (s : State) : (selectBest s).resultAux = s.resultAux := rfl
@[simp] theorem selectBest_ecLen (s : State) : (selectBest s).ecLen = s.ecLen := rfl
@[simp] theorem selectBest_version (s : State) : (selectBest s).version = s.version := rfl
@[simp] theorem selectBest_feedCnt (s : State) : (selectBest s).feedCnt = s.feedCnt := rfl
@[simp] theorem selectBest_selMask (s : State) : (selectBest s).selMask = bestMask s.score := rfl
@[simp] theorem selectBest_selValid (s : State) : (selectBest s).selValid = true := rfl
@[simp] theorem selectBest_bestScore (s : State) :
    (selectBest s).bestScore = scoreAt s.score (bestMask s.score) := rfl
@[simp] theorem selectBest_gen (s : State) : (selectBest s).gen = s.gen := rfl
@[simp] theorem selectBest_rem (s : State) : (selectBest s).rem = s.rem := rfl
@[simp] theorem selectBest_score (s : State) : (selectBest s).score = s.score := rfl
@[simp] theorem selectBest_pen (s : State) : (selectBest s).pen = s.pen := rfl
@[simp] theorem selectBest_mem (s : State) : (selectBest s).mem = s.mem := rfl
@[simp] theorem selectBest_resets (s : State) : (selectBest s).resets = s.resets := rfl
@[simp] theorem selectBest_draws (s : State) : (selectBest s).draws = s.draws := rfl
@[simp] theorem selectBest_schedule (s : State) : (selectBest s).schedule = s.schedule := rfl
@[simp] theorem selectBest_hostProg (s : State) : (selectBest s).hostProg = s.hostProg := rfl
@[simp] theorem selectBest_hostPc (s : State) : (selectBest s).hostPc = s.hostPc := rfl
@[simp] theorem selectBest_temps (s : State) : (selectBest s).temps = s.temps := rfl
@[simp] theorem selectBest_resp (s : State) : (selectBest s).resp = s.resp := rfl

/-! ## `maskApply` -/

@[simp] theorem maskApply_params (m : MaskId) (s : State) : (maskApply m s).params = s.params := rfl
@[simp] theorem maskApply_ieDone (m : MaskId) (s : State) : (maskApply m s).ieDone = s.ieDone := rfl
@[simp] theorem maskApply_ieErr (m : MaskId) (s : State) : (maskApply m s).ieErr = s.ieErr := rfl
@[simp] theorem maskApply_err (m : MaskId) (s : State) : (maskApply m s).err = s.err := rfl
@[simp] theorem maskApply_lastOp (m : MaskId) (s : State) : (maskApply m s).lastOp = s.lastOp := rfl
@[simp] theorem maskApply_irqDone (m : MaskId) (s : State) : (maskApply m s).irqDone = s.irqDone := rfl
@[simp] theorem maskApply_irqErr (m : MaskId) (s : State) : (maskApply m s).irqErr = s.irqErr := rfl
@[simp] theorem maskApply_inflight (m : MaskId) (s : State) : (maskApply m s).inflight = s.inflight := rfl
@[simp] theorem maskApply_result (m : MaskId) (s : State) : (maskApply m s).result = s.result := rfl
@[simp] theorem maskApply_resultAux (m : MaskId) (s : State) : (maskApply m s).resultAux = s.resultAux := rfl
@[simp] theorem maskApply_ecLen (m : MaskId) (s : State) : (maskApply m s).ecLen = s.ecLen := rfl
@[simp] theorem maskApply_version (m : MaskId) (s : State) : (maskApply m s).version = s.version := rfl
@[simp] theorem maskApply_feedCnt (m : MaskId) (s : State) : (maskApply m s).feedCnt = s.feedCnt := rfl
@[simp] theorem maskApply_selMask (m : MaskId) (s : State) : (maskApply m s).selMask = s.selMask := rfl
@[simp] theorem maskApply_selValid (m : MaskId) (s : State) : (maskApply m s).selValid = false := rfl
@[simp] theorem maskApply_bestScore (m : MaskId) (s : State) : (maskApply m s).bestScore = s.bestScore := rfl
@[simp] theorem maskApply_gen (m : MaskId) (s : State) : (maskApply m s).gen = s.gen := rfl
@[simp] theorem maskApply_rem (m : MaskId) (s : State) : (maskApply m s).rem = s.rem := rfl
@[simp] theorem maskApply_score (m : MaskId) (s : State) : (maskApply m s).score = s.score := rfl
@[simp] theorem maskApply_pen (m : MaskId) (s : State) : (maskApply m s).pen = s.pen := rfl
@[simp] theorem maskApply_mem (m : MaskId) (s : State) :
    (maskApply m s).mem = (coords s.side).foldl (flipInto m s) s.mem := rfl
@[simp] theorem maskApply_resets (m : MaskId) (s : State) : (maskApply m s).resets = s.resets := rfl
@[simp] theorem maskApply_draws (m : MaskId) (s : State) : (maskApply m s).draws = s.draws := rfl
@[simp] theorem maskApply_schedule (m : MaskId) (s : State) : (maskApply m s).schedule = s.schedule := rfl
@[simp] theorem maskApply_hostProg (m : MaskId) (s : State) : (maskApply m s).hostProg = s.hostProg := rfl
@[simp] theorem maskApply_hostPc (m : MaskId) (s : State) : (maskApply m s).hostPc = s.hostPc := rfl
@[simp] theorem maskApply_temps (m : MaskId) (s : State) : (maskApply m s).temps = s.temps := rfl
@[simp] theorem maskApply_resp (m : MaskId) (s : State) : (maskApply m s).resp = s.resp := rfl

/-! ## `issue` -/

@[simp] theorem issue_params (w : Word) (s : State) : (issue w s).params = s.params := rfl
@[simp] theorem issue_ieDone (w : Word) (s : State) : (issue w s).ieDone = s.ieDone := rfl
@[simp] theorem issue_ieErr (w : Word) (s : State) : (issue w s).ieErr = s.ieErr := rfl
@[simp] theorem issue_err (w : Word) (s : State) : (issue w s).err = s.err := rfl
@[simp] theorem issue_lastOp (w : Word) (s : State) : (issue w s).lastOp = s.lastOp := rfl
@[simp] theorem issue_irqDone (w : Word) (s : State) : (issue w s).irqDone = s.irqDone := rfl
@[simp] theorem issue_irqErr (w : Word) (s : State) : (issue w s).irqErr = s.irqErr := rfl
@[simp] theorem issue_inflight (w : Word) (s : State) : (issue w s).inflight = some w := rfl
@[simp] theorem issue_result (w : Word) (s : State) : (issue w s).result = s.result := rfl
@[simp] theorem issue_resultAux (w : Word) (s : State) : (issue w s).resultAux = s.resultAux := rfl
@[simp] theorem issue_ecLen (w : Word) (s : State) : (issue w s).ecLen = s.ecLen := rfl
@[simp] theorem issue_version (w : Word) (s : State) : (issue w s).version = s.version := rfl
@[simp] theorem issue_feedCnt (w : Word) (s : State) : (issue w s).feedCnt = s.feedCnt := rfl
@[simp] theorem issue_selMask (w : Word) (s : State) : (issue w s).selMask = s.selMask := rfl
@[simp] theorem issue_selValid (w : Word) (s : State) : (issue w s).selValid = s.selValid := rfl
@[simp] theorem issue_bestScore (w : Word) (s : State) : (issue w s).bestScore = s.bestScore := rfl
@[simp] theorem issue_gen (w : Word) (s : State) : (issue w s).gen = s.gen := rfl
@[simp] theorem issue_rem (w : Word) (s : State) : (issue w s).rem = s.rem := rfl
@[simp] theorem issue_score (w : Word) (s : State) : (issue w s).score = s.score := rfl
@[simp] theorem issue_pen (w : Word) (s : State) : (issue w s).pen = s.pen := rfl
@[simp] theorem issue_mem (w : Word) (s : State) : (issue w s).mem = s.mem := rfl
@[simp] theorem issue_resets (w : Word) (s : State) : (issue w s).resets = s.resets := rfl
@[simp] theorem issue_draws (w : Word) (s : State) : (issue w s).draws = s.draws := rfl
@[simp] theorem issue_schedule (w : Word) (s : State) : (issue w s).schedule = s.schedule := rfl
@[simp] theorem issue_hostProg (w : Word) (s : State) : (issue w s).hostProg = s.hostProg := rfl
@[simp] theorem issue_hostPc (w : Word) (s : State) : (issue w s).hostPc = s.hostPc := rfl
@[simp] theorem issue_temps (w : Word) (s : State) : (issue w s).temps = s.temps := rfl
@[simp] theorem issue_resp (w : Word) (s : State) : (issue w s).resp = s.resp := rfl

/-! ## `writeIrqStat` -/

@[simp] theorem writeIrqStat_params (v : Word) (s : State) : (writeIrqStat v s).params = s.params := rfl
@[simp] theorem writeIrqStat_ieDone (v : Word) (s : State) : (writeIrqStat v s).ieDone = s.ieDone := rfl
@[simp] theorem writeIrqStat_ieErr (v : Word) (s : State) : (writeIrqStat v s).ieErr = s.ieErr := rfl
@[simp] theorem writeIrqStat_err (v : Word) (s : State) : (writeIrqStat v s).err = s.err := rfl
@[simp] theorem writeIrqStat_lastOp (v : Word) (s : State) : (writeIrqStat v s).lastOp = s.lastOp := rfl
@[simp] theorem writeIrqStat_irqDone (v : Word) (s : State) :
    (writeIrqStat v s).irqDone = (s.irqDone && !v.getLsbD 0) := rfl
@[simp] theorem writeIrqStat_irqErr (v : Word) (s : State) :
    (writeIrqStat v s).irqErr = (s.irqErr && !v.getLsbD 1) := rfl
@[simp] theorem writeIrqStat_inflight (v : Word) (s : State) : (writeIrqStat v s).inflight = s.inflight := rfl
@[simp] theorem writeIrqStat_result (v : Word) (s : State) : (writeIrqStat v s).result = s.result := rfl
@[simp] theorem writeIrqStat_resultAux (v : Word) (s : State) : (writeIrqStat v s).resultAux = s.resultAux := rfl
@[simp] theorem writeIrqStat_ecLen (v : Word) (s : State) : (writeIrqStat v s).ecLen = s.ecLen := rfl
@[simp] theorem writeIrqStat_version (v : Word) (s : State) : (writeIrqStat v s).version = s.version := rfl
@[simp] theorem writeIrqStat_feedCnt (v : Word) (s : State) : (writeIrqStat v s).feedCnt = s.feedCnt := rfl
@[simp] theorem writeIrqStat_selMask (v : Word) (s : State) : (writeIrqStat v s).selMask = s.selMask := rfl
@[simp] theorem writeIrqStat_selValid (v : Word) (s : State) : (writeIrqStat v s).selValid = s.selValid := rfl
@[simp] theorem writeIrqStat_bestScore (v : Word) (s : State) : (writeIrqStat v s).bestScore = s.bestScore := rfl
@[simp] theorem writeIrqStat_gen (v : Word) (s : State) : (writeIrqStat v s).gen = s.gen := rfl
@[simp] theorem writeIrqStat_rem (v : Word) (s : State) : (writeIrqStat v s).rem = s.rem := rfl
@[simp] theorem writeIrqStat_score (v : Word) (s : State) : (writeIrqStat v s).score = s.score := rfl
@[simp] theorem writeIrqStat_pen (v : Word) (s : State) : (writeIrqStat v s).pen = s.pen := rfl
@[simp] theorem writeIrqStat_mem (v : Word) (s : State) : (writeIrqStat v s).mem = s.mem := rfl
@[simp] theorem writeIrqStat_resets (v : Word) (s : State) : (writeIrqStat v s).resets = s.resets := rfl
@[simp] theorem writeIrqStat_draws (v : Word) (s : State) : (writeIrqStat v s).draws = s.draws := rfl
@[simp] theorem writeIrqStat_schedule (v : Word) (s : State) : (writeIrqStat v s).schedule = s.schedule := rfl
@[simp] theorem writeIrqStat_hostProg (v : Word) (s : State) : (writeIrqStat v s).hostProg = s.hostProg := rfl
@[simp] theorem writeIrqStat_hostPc (v : Word) (s : State) : (writeIrqStat v s).hostPc = s.hostPc := rfl
@[simp] theorem writeIrqStat_temps (v : Word) (s : State) : (writeIrqStat v s).temps = s.temps := rfl
@[simp] theorem writeIrqStat_resp (v : Word) (s : State) : (writeIrqStat v s).resp = s.resp := rfl

/-! ## `writeCell` -/

@[simp] theorem writeCell_params (r c : Nat) (v : Word) (s : State) : (writeCell r c v s).params = s.params := rfl
@[simp] theorem writeCell_ieDone (r c : Nat) (v : Word) (s : State) : (writeCell r c v s).ieDone = s.ieDone := rfl
@[simp] theorem writeCell_ieErr (r c : Nat) (v : Word) (s : State) : (writeCell r c v s).ieErr = s.ieErr := rfl
@[simp] theorem writeCell_err (r c : Nat) (v : Word) (s : State) : (writeCell r c v s).err = s.err := rfl
@[simp] theorem writeCell_lastOp (r c : Nat) (v : Word) (s : State) : (writeCell r c v s).lastOp = s.lastOp := rfl
@[simp] theorem writeCell_irqDone (r c : Nat) (v : Word) (s : State) : (writeCell r c v s).irqDone = s.irqDone := rfl
@[simp] theorem writeCell_irqErr (r c : Nat) (v : Word) (s : State) : (writeCell r c v s).irqErr = s.irqErr := rfl
@[simp] theorem writeCell_inflight (r c : Nat) (v : Word) (s : State) :
    (writeCell r c v s).inflight = s.inflight := rfl
@[simp] theorem writeCell_result (r c : Nat) (v : Word) (s : State) : (writeCell r c v s).result = s.result := rfl
@[simp] theorem writeCell_resultAux (r c : Nat) (v : Word) (s : State) :
    (writeCell r c v s).resultAux = s.resultAux := rfl
@[simp] theorem writeCell_ecLen (r c : Nat) (v : Word) (s : State) : (writeCell r c v s).ecLen = s.ecLen := rfl
@[simp] theorem writeCell_version (r c : Nat) (v : Word) (s : State) : (writeCell r c v s).version = s.version := rfl
@[simp] theorem writeCell_feedCnt (r c : Nat) (v : Word) (s : State) : (writeCell r c v s).feedCnt = s.feedCnt := rfl
@[simp] theorem writeCell_selMask (r c : Nat) (v : Word) (s : State) : (writeCell r c v s).selMask = s.selMask := rfl
@[simp] theorem writeCell_selValid (r c : Nat) (v : Word) (s : State) :
    (writeCell r c v s).selValid = s.selValid := rfl
@[simp] theorem writeCell_bestScore (r c : Nat) (v : Word) (s : State) :
    (writeCell r c v s).bestScore = s.bestScore := rfl
@[simp] theorem writeCell_gen (r c : Nat) (v : Word) (s : State) : (writeCell r c v s).gen = s.gen := rfl
@[simp] theorem writeCell_rem (r c : Nat) (v : Word) (s : State) : (writeCell r c v s).rem = s.rem := rfl
@[simp] theorem writeCell_score (r c : Nat) (v : Word) (s : State) : (writeCell r c v s).score = s.score := rfl
@[simp] theorem writeCell_pen (r c : Nat) (v : Word) (s : State) : (writeCell r c v s).pen = s.pen := rfl
@[simp] theorem writeCell_mem (r c : Nat) (v : Word) (s : State) :
    (writeCell r c v s).mem = s.mem.write (cellAddr r c) (cellOfWord v).toByte := rfl
@[simp] theorem writeCell_resets (r c : Nat) (v : Word) (s : State) : (writeCell r c v s).resets = s.resets := rfl
@[simp] theorem writeCell_draws (r c : Nat) (v : Word) (s : State) : (writeCell r c v s).draws = s.draws := rfl
@[simp] theorem writeCell_schedule (r c : Nat) (v : Word) (s : State) :
    (writeCell r c v s).schedule = s.schedule := rfl
@[simp] theorem writeCell_hostProg (r c : Nat) (v : Word) (s : State) :
    (writeCell r c v s).hostProg = s.hostProg := rfl
@[simp] theorem writeCell_hostPc (r c : Nat) (v : Word) (s : State) : (writeCell r c v s).hostPc = s.hostPc := rfl
@[simp] theorem writeCell_temps (r c : Nat) (v : Word) (s : State) : (writeCell r c v s).temps = s.temps := rfl
@[simp] theorem writeCell_resp (r c : Nat) (v : Word) (s : State) : (writeCell r c v s).resp = s.resp := rfl

end Sys2Proof.Machine
end

