-- ==== Sys2Proof/Laws/Exec.lean ====
section
/-! SUPPORT. What the shared operations do, said once: executing a command, a bus read, a bus write, a step of the Host,
a step of the machine. -/

namespace Sys2Proof.Machine

/-! ## Commands -/

/-- The result code of a command whose word the decoder accepts. -/
def codeOf : Instr → State → ResultCode
  | .nop, _ => .ok
  | .setVersion v, s => setVersionCode v s
  | .gfMul _ _, _ => .ok
  | .gfExp _, _ => .ok
  | .rsSetup n, s => rsSetupCode n s
  | .rsClear, s => needsEcLen s
  | .rsFeed _, s => needsEcLen s
  | .penScore _, s => needsVersion s
  | .maskEval, s => needsVersion s
  | .maskApply _, s => needsVersion s
  | .bchFormat _ _, _ => .ok
  | .bchVersion _, _ => .ok

/-- The effect of a command whose result code is OK. -/
def effectOf : Instr → State → State
  | .nop => fun s => s
  | .setVersion v => setVersion v
  | .gfMul a b => setResult ((gfmul a b).setWidth 32) 0#32
  | .gfExp e => setResult ((alphaPow (exponent e)).setWidth 32) 0#32
  | .rsSetup n => rsSetup n
  | .rsClear => clearRem
  | .rsFeed d => rsFeed d
  | .penScore m => penScore m
  | .maskEval => maskEval
  | .maskApply m => maskApply m
  | .bchFormat e m => setResult (BitVec.ofNat 32 (formatRaw e m ^^^ formatMask)) (BitVec.ofNat 32 (formatRaw e m))
  | .bchVersion v => setResult (BitVec.ofNat 32 (versionWord v)) (BitVec.ofNat 32 (versionWord v))

/-- Every command is its result code, its effect and the completion record (R162). -/
theorem exec_eq_finish (i : Instr) (s : State) : exec i s = finish i (codeOf i s) (effectOf i) s := by
  cases i <;> rfl

theorem finish_ok (i : Instr) (f : State → State) (s : State) :
    finish i .ok f s = .next (complete .ok i.opcode (f s)) := rfl

theorem finish_failed (i : Instr) {code : ResultCode} (h : code ≠ .ok) (f : State → State) (s : State) :
    finish i code f s = .next (complete code i.opcode s) := by
  simp [finish, h]

theorem exec_ok {i : Instr} {s : State} (h : codeOf i s = .ok) :
    exec i s = .next (complete .ok i.opcode (effectOf i s)) := by
  rw [exec_eq_finish, h, finish_ok]

theorem exec_failed {i : Instr} {s : State} (h : codeOf i s ≠ .ok) :
    exec i s = .next (complete (codeOf i s) i.opcode s) := by
  rw [exec_eq_finish, finish_failed i h]

/-- Inversion: a command that answers a next state has completed with its code, with its effect exactly when that is
OK. -/
theorem exec_cases {i : Instr} {s t : State} (h : exec i s = .next t) :
    (codeOf i s = .ok ∧ t = complete .ok i.opcode (effectOf i s)) ∨
      (codeOf i s ≠ .ok ∧ t = complete (codeOf i s) i.opcode s) := by
  by_cases hc : codeOf i s = .ok
  · rw [exec_ok hc] at h
    exact .inl ⟨hc, (Host.Outcome.next.inj h).symm⟩
  · rw [exec_failed hc] at h
    exact .inr ⟨hc, (Host.Outcome.next.inj h).symm⟩

/-- Every command answers a next state. -/
theorem exec_answers (i : Instr) (s : State) : ∃ t, exec i s = .next t := by
  rw [exec_eq_finish]
  exact ⟨_, rfl⟩

theorem execute_answers (w : Word) (s : State) : ∃ t, execute w s = .next t := by
  unfold execute
  split
  · exact exec_answers _ s
  · exact ⟨_, rfl⟩
  · exact ⟨_, rfl⟩

/-- Inversion: executing a word runs its command, or completes with the decoder's code and no other effect. -/
theorem execute_cases {w : Word} {s t : State} (h : execute w s = .next t) :
    (∃ i, decode w = .instr i ∧ exec i s = .next t) ∨
      (decode w = .illegalOp ∧ t = complete .illegalOp (opField w) s) ∨
      (decode w = .badArg ∧ t = complete .badArg (opField w) s) := by
  unfold execute at h
  split at h
  · exact .inl ⟨_, ‹_›, h⟩
  · exact .inr (.inl ⟨‹_›, (Host.Outcome.next.inj h).symm⟩)
  · exact .inr (.inr ⟨‹_›, (Host.Outcome.next.inj h).symm⟩)

/-! ## The bus -/

/-- A bus read is an error, a free answer, or the value read. -/
theorem busRead_cases (a : BusAddr) (s : State) :
    (decodeAddr s.params a = none ∧ busRead a s = (s, .error a)) ∨
      ∃ t, decodeAddr s.params a = some t ∧
        ((s.busy = true ∧ t.hiddenWhileBusy = true ∧
            busRead a s = ({ s with draws := s.draws + 1 }, .data (Config.freeDraw s.draws))) ∨
          (¬ (s.busy = true ∧ t.hiddenWhileBusy = true) ∧ busRead a s = (s, .data (s.readTarget t)))) := by
  unfold busRead
  split
  · exact .inl ⟨‹_›, rfl⟩
  · rename_i t ht
    refine .inr ⟨t, ht, ?_⟩
    split
    · rename_i h
      simp only [Bool.and_eq_true] at h
      exact .inl ⟨h.1, h.2, rfl⟩
    · rename_i h
      simp only [Bool.and_eq_true] at h
      exact .inr ⟨h, rfl⟩

/-- A bus write is an error that changes nothing, or an accepted write. -/
theorem busWrite_cases (a : BusAddr) (strobes : BitVec 4) (v : Word) (s : State) :
    busWrite a strobes v s = (s, .error a) ∨
      ∃ t, decodeAddr s.params a = some t ∧ strobes = 0xF#4 ∧ t.readOnly = false
        ∧ (s.busy = true → t = .ctrl ∨ t = .irqStat) ∧ busWrite a strobes v s = (writeTarget t v s, .written) := by
  unfold busWrite
  split
  · exact .inl rfl
  · rename_i t ht
    by_cases h1 : strobes = 0xF#4
    · cases h2 : t.readOnly
      · by_cases h3 : (s.busy && !t.writableWhileBusy) = true
        · exact .inl (by simp [h1, h3])
        · refine .inr ⟨t, ht, h1, h2, fun hb => ?_, by simp [h1, h3]⟩
          simp only [hb, Target.writableWhileBusy, Bool.true_and, Bool.not_eq_true', Bool.not_eq_false, Bool.or_eq_true,
            decide_eq_true_eq] at h3
          exact h3
      · exact .inl (by simp [h1])
    · exact .inl (by simp [h1])

/-- An accepted write goes to CTRL, IRQ_STAT, CMD or a cell. -/
theorem writable_cases {t : Target} (h : t.readOnly = false) :
    t = .ctrl ∨ t = .irqStat ∨ t = .cmd ∨ ∃ r c, t = .cell r c := by
  cases t <;> simp_all [Target.readOnly]

/-- A cell that the address map selects exists, and the address is its own. -/
theorem decodeAddr_cell {p : Params} {a : BusAddr} {r c : Nat} (h : decodeAddr p a = some (.cell r c)) :
    isCellAddr p.nmax a.toNat = true ∧ r = rowOfAddr a.toNat ∧ c = colOfAddr a.toNat ∧ cellAddr r c = a.toNat := by
  unfold decodeAddr at h
  simp only at h
  split at h
  · simp at h
  split at h
  · rename_i h1
    obtain ⟨h2, h3⟩ := List.getElem?_eq_some_iff.mp h
    have : Target.cell r c ∈ fixedTargets := h3 ▸ List.getElem_mem h2
    simp [fixedTargets] at this
  iterate 4 (split at h; · simp at h)
  split at h
  · rename_i h5
    simp only [Option.some.injEq, Target.cell.injEq] at h
    refine ⟨h5, h.1.symm, h.2.symm, ?_⟩
    rw [← h.1, ← h.2]
    exact cellAddr_of_isCellAddr h5
  · simp at h

/-! ## Steps -/

/-- A step is the Host's, the Engine's or a reset. -/
theorem step_cases {s t : State} (h : step s = .next t) :
    (nextMove s = .host ∧ t = hostStep (popMove s)) ∨
      (nextMove s = .engine ∧ s.inflight = none ∧ t = popMove s) ∨
      (nextMove s = .engine ∧ ∃ w, s.inflight = some w ∧ execute w (popMove s) = .next t) ∨
      (nextMove s = .rst ∧ t = resetBlock (popMove s)) := by
  unfold step makeMove at h
  split at h
  · exact .inl ⟨‹_›, (Host.Outcome.next.inj h).symm⟩
  · unfold engineStep at h
    simp only [popMove_inflight] at h
    split at h
    · exact .inr (.inl ⟨‹_›, ‹_›, (Host.Outcome.next.inj h).symm⟩)
    · exact .inr (.inr (.inl ⟨‹_›, _, ‹_›, h⟩))
  · exact .inr (.inr (.inr ⟨‹_›, (Host.Outcome.next.inj h).symm⟩))

/-- A Host step is one bus write, one bus read, or none when there is no further one (R15). -/
theorem hostStep_cases (s : State) :
    hostStep s = s ∨
      (∃ a strobes v, s.hostProg[s.busPos]? = some (.write a strobes v)
        ∧ hostStep s = afterBus s.busPos (busWrite a strobes v s)) ∨
      ∃ a t, s.hostProg[s.busPos]? = some (.read a t)
        ∧ hostStep s = storeData t (busRead a s).2 (afterBus s.busPos (busRead a s)) := by
  unfold hostStep
  split
  · exact .inl rfl
  · rename_i op hop
    cases op with
    | write a strobes v => exact .inr (.inl ⟨a, strobes, v, hop, rfl⟩)
    | read a t => exact .inr (.inr ⟨a, t, hop, rfl⟩)
    | bnz t mask target => exact .inl rfl
    | beq t v target => exact .inl rfl

theorem hostStep_write {s : State} {a : BusAddr} {strobes : BitVec 4} {v : Word}
    (h : s.hostProg[s.busPos]? = some (.write a strobes v)) :
    hostStep s = afterBus s.busPos (busWrite a strobes v s) := by
  simp only [hostStep, h, hostOp]

theorem hostStep_read {s : State} {a : BusAddr} {t : Nat} (h : s.hostProg[s.busPos]? = some (.read a t)) :
    hostStep s = storeData t (busRead a s).2 (afterBus s.busPos (busRead a s)) := by
  simp only [hostStep, h, hostOp]

end Sys2Proof.Machine
end

