-- ==== Sys2Proof/Laws/Check.lean ====
section
/-! SUPPORT. The check of a command word against the decoder and the meanings (60_exceptions.md R183): the three ways a
word decodes, and the result code of each. -/

namespace Sys2Proof.Machine

theorem listedOps_cases {op : Byte} (h : op ∈ listedOps) :
    op = 0x00 ∨ op = 0x01 ∨ op = 0x10 ∨ op = 0x11 ∨ op = 0x20 ∨ op = 0x21 ∨ op = 0x22 ∨ op = 0x30 ∨ op = 0x31
      ∨ op = 0x32 ∨ op = 0x40 ∨ op = 0x41 := by
  simpa [listedOps] using h

/-- A word that decodes to a command is checked as the command's meaning checks it, and carries its opcode. -/
theorem check_of_instr {w : Word} {i : Instr} (h : decode w = .instr i) (s : State) :
    check w s = codeOf i s ∧ i.opcode = opField w := by
  obtain ⟨h1, h2, h3⟩ := decode_instr h
  generalize ha : argA w = a at *
  generalize hb : argB w = b at *
  rcases listedOps_cases h1 with h | h | h | h | h | h | h | h | h | h | h | h <;> rw [h] at h3 <;>
    simp only [check, h, h2, ha, hb] <;> simp [decodeArgs] at h3
  all_goals obtain ⟨⟨h4, h5⟩, rfl⟩ := h3
  all_goals simp_all [codeOf, argsInRange, listedOps, needsEcLen, needsVersion, codeIf, State.rsReady, State.verReady,
    setVersionCode, rsSetupCode, Instr.opcode]
  all_goals split <;> simp_all

theorem decode_illegalOp_iff (w : Word) : decode w = .illegalOp ↔ opField w ∉ listedOps := by
  unfold decode
  split
  · simp_all
  · split
    · simp_all
    · split <;> simp_all

/-- A word with a reserved opcode is checked ILLEGAL_OP. -/
theorem check_of_illegalOp {w : Word} (h : decode w = .illegalOp) (s : State) : check w s = .illegalOp := by
  simp [check, (decode_illegalOp_iff w).mp h]

/-- A word the decoder rejects as BAD_ARG is checked BAD_ARG, whatever the state. -/
theorem check_of_badArg {w : Word} (h : decode w = .badArg) (s : State) : check w s = .badArg := by
  have h1 : opField w ∈ listedOps := by
    by_contra hc
    simp [(decode_illegalOp_iff w).mpr hc] at h
  simp only [decode, h1, not_true_eq_false, if_false] at h
  split at h
  · rename_i h2
    simp [check, h1, h2]
  rename_i h2
  split at h
  · cases h
  rename_i h3
  have h2 : rsvField w = 0#8 := by simpa using h2
  simp only [check, h1, h2]
  suffices argsInRange s.params (opField w) (argA w) (argB w) = false by simp [this]
  clear h2 h
  generalize argA w = a at *
  generalize argB w = b at *
  rcases listedOps_cases h1 with h | h | h | h | h | h | h | h | h | h | h | h <;> rw [h] at h3 ⊢ <;>
    simp_all [decodeArgs, argsInRange]

end Sys2Proof.Machine
end

