-- ==== Sys2Proof/Laws/Host.lean ====
section
/-! SUPPORT. Where the Host's next bus transaction stands (30_encoding.md R79, 00_scope.md R15): `busPos` is the position
that the operations inside the Host lead to, however many they are. -/

namespace Sys2Proof.Machine

/-- The position after the operation at a position, if that is one inside the Host. -/
def State.jumpAt (s : State) (pos : Nat) : Option Nat := s.hostProg[pos]?.bind (HostOp.jump s pos)

theorem follow_jump {s : State} {pos next : Nat} (h : s.jumpAt pos = some next) (fuel : Nat) :
    s.follow (fuel + 1) pos = s.follow fuel next := by
  simp only [State.jumpAt] at h
  simp only [State.follow, h]

theorem follow_stays {s : State} {pos : Nat} (h : s.jumpAt pos = none) (fuel : Nat) : s.follow fuel pos = pos := by
  simp only [State.jumpAt] at h
  cases fuel with
  | zero => rfl
  | succ n => simp only [State.follow, h]

theorem jumpAt_write {s : State} {pos : Nat} {a : BusAddr} {strobes : BitVec 4} {v : Word}
    (h : s.hostProg[pos]? = some (.write a strobes v)) : s.jumpAt pos = none := by simp [State.jumpAt, h, HostOp.jump]

theorem jumpAt_read {s : State} {pos : Nat} {a : BusAddr} {t : Nat} (h : s.hostProg[pos]? = some (.read a t)) :
    s.jumpAt pos = none := by simp [State.jumpAt, h, HostOp.jump]

theorem jumpAt_end {s : State} {pos : Nat} (h : s.hostProg[pos]? = none) : s.jumpAt pos = none := by
  simp [State.jumpAt, h]

/-- An operation inside the Host stands in the program. -/
theorem lt_of_jumpAt {s : State} {pos next : Nat} (h : s.jumpAt pos = some next) : pos < s.hostProg.length := by
  by_contra hc
  simp [State.jumpAt, List.getElem?_eq_none (Nat.le_of_not_lt hc)] at h

/-- To follow m + n operations is to follow m of them and then n. -/
theorem follow_add (s : State) (m n pos : Nat) : s.follow (m + n) pos = s.follow n (s.follow m pos) := by
  induction m generalizing pos with
  | zero => simp [State.follow]
  | succ m ih =>
    cases h : s.jumpAt pos with
    | none => rw [follow_stays h, follow_stays h, follow_stays h]
    | some next => rw [Nat.succ_add, follow_jump h, follow_jump h, ih]

theorem exists_follow_of_jumps {s : State} {pos dest : Nat} (h : Jumps s pos dest) : ∃ n, s.follow n pos = dest := by
  induction h with
  | here pos => exact ⟨0, rfl⟩
  | bnz h _ ih =>
    obtain ⟨n, hn⟩ := ih
    exact ⟨n + 1, (follow_jump (by simp [State.jumpAt, h, HostOp.jump]) n).trans hn⟩
  | beq h _ ih =>
    obtain ⟨n, hn⟩ := ih
    exact ⟨n + 1, (follow_jump (by simp [State.jumpAt, h, HostOp.jump]) n).trans hn⟩

/-- A walk that has not ended after as many operations as the program has never ends: two of its positions agree. -/
theorem follow_ends {s : State} {n pos : Nat} (h : s.jumpAt (s.follow n pos) = none) :
    s.follow s.hostProg.length pos = s.follow n pos := by
  classical
  -- the least number of operations after which the walk ends
  have hex : ∃ n, s.jumpAt (s.follow n pos) = none := ⟨n, h⟩
  obtain ⟨k, hk, hmin⟩ : ∃ k, s.jumpAt (s.follow k pos) = none ∧ ∀ j < k, s.jumpAt (s.follow j pos) ≠ none :=
    ⟨Nat.find hex, Nat.find_spec hex, fun j hj => Nat.find_min hex hj⟩
  have after : ∀ m, k ≤ m → s.follow m pos = s.follow k pos := by
    intro m hm
    obtain ⟨d, rfl⟩ := Nat.exists_eq_add_of_le hm
    rw [follow_add, follow_stays hk]
  -- before it ends, the walk is at a different place of the program each time
  have inside : ∀ j < k, s.follow j pos < s.hostProg.length := by
    intro j hj
    obtain ⟨next, hn⟩ := Option.ne_none_iff_exists'.mp (hmin j hj)
    exact lt_of_jumpAt hn
  have distinct : ∀ i j, i < j → j < k → s.follow i pos ≠ s.follow j pos := by
    intro i j hij hjk he
    refine hmin (i + (k - j)) (by omega) ?_
    rw [follow_add, he, ← follow_add, show j + (k - j) = k by omega]
    exact hk
  have hkl : k ≤ s.hostProg.length := by
    have hinj : Set.InjOn (fun j => s.follow j pos) (Finset.range k : Set Nat) := by
      intro i hi j hj he
      simp only [Finset.coe_range, Set.mem_Iio] at hi hj
      rcases Nat.lt_trichotomy i j with hlt | rfl | hlt
      · exact absurd he (distinct i j hlt hj)
      · rfl
      · exact absurd he.symm (distinct j i hlt hi)
    have hmaps : ∀ j ∈ Finset.range k, s.follow j pos ∈ Finset.range s.hostProg.length :=
      fun j hj => Finset.mem_range.mpr (inside j (Finset.mem_range.mp hj))
    simpa using Finset.card_le_card_of_injOn _ hmaps hinj
  have hnk : k ≤ n := by
    by_contra hc
    exact hmin n (by omega) h
  rw [after _ hkl, after _ hnk]

/-- Following operations is a chain of jumps. -/
theorem jumps_follow (s : State) (n pos : Nat) : Jumps s pos (s.follow n pos) := by
  induction n generalizing pos with
  | zero => exact .here pos
  | succ n ih =>
    cases h : s.jumpAt pos with
    | none => rw [follow_stays h]; exact .here pos
    | some next =>
      rw [follow_jump h]
      obtain ⟨op, hop, hj⟩ := Option.bind_eq_some_iff.mp h
      cases op with
      | write a strobes v => simp [HostOp.jump] at hj
      | read a t => simp [HostOp.jump] at hj
      | bnz t mask target =>
        obtain rfl := Option.some.inj hj
        exact .bnz hop (ih _)
      | beq t v target =>
        obtain rfl := Option.some.inj hj
        exact .beq hop (ih _)

theorem jumps_busPos (s : State) : Jumps s s.hostPc s.busPos := jumps_follow s _ _

/-- The walk reads the program and the temporaries and nothing else. -/
theorem follow_congr {s t : State} (hp : t.hostProg = s.hostProg) (ht : t.temps = s.temps) (n pos : Nat) :
    t.follow n pos = s.follow n pos := by
  have hj : ∀ pos, t.jumpAt pos = s.jumpAt pos := by
    intro pos
    simp only [State.jumpAt, hp]
    congr 1
    funext op
    cases op <;> simp only [HostOp.jump, State.temp, ht] <;> congr
  induction n generalizing pos with
  | zero => rfl
  | succ n ih =>
    cases h : s.jumpAt pos with
    | none => rw [follow_stays h, follow_stays ((hj pos).trans h)]
    | some next => rw [follow_jump h, follow_jump ((hj pos).trans h), ih]

theorem busPos_congr {s t : State} (hp : t.hostProg = s.hostProg) (ht : t.temps = s.temps) (hc : t.hostPc = s.hostPc) :
    t.busPos = s.busPos := by rw [State.busPos, State.busPos, hp, hc, follow_congr hp ht]

@[simp] theorem popMove_busPos (s : State) : (popMove s).busPos = s.busPos := busPos_congr rfl rfl rfl

/-- `busPos` is the position that the operations inside the Host lead to. -/
theorem busPos_of_jumps {s : State} {dest : Nat} (h : Jumps s s.hostPc dest) (hend : s.jumpAt dest = none) :
    s.busPos = dest := by
  obtain ⟨n, hn⟩ := exists_follow_of_jumps h
  rw [State.busPos, follow_ends (by rw [hn]; exact hend), hn]

end Sys2Proof.Machine
end

