-- ==== Sys2Proof/Laws/Matrix.lean ====
section
/-! SUPPORT. The matrix as the commands and the bus see it: the coordinates of the active region, what `MASK_APPLY`
leaves in each cell, what a cell write leaves, and that both keep the canonical form of the matrix RAM. -/

namespace Sys2Proof.Machine

theorem mem_coords {n : Nat} {rc : Nat × Nat} : rc ∈ coords n ↔ rc.1 < n ∧ rc.2 < n := by
  obtain ⟨r, c⟩ := rc
  simp [coords]

/-- The side of the active region is at most the side of the matrix RAM. -/
theorem side_le_nmax {s : State} (h : s.version.toNat ≤ s.params.maxVersion.toNat) : s.side ≤ s.params.nmax := by
  simp only [State.side, Sys2Proof.Params.nmax]
  split <;> omega

/-- With parameters in range the matrix RAM is at most 177 cells wide. -/
theorem nmax_le {p : Params} (h : p.wf = true) : p.nmax ≤ 177 := by
  simp only [Params.wf, Bool.and_eq_true, decide_eq_true_eq] at h
  simp only [Sys2Proof.Params.nmax]
  omega

/-! ## Canonical form -/

theorem wf_flipInto {nmax : Nat} (hn : nmax ≤ 256) (m : MaskId) (old : State) {mem : Memory}
    (hm : Memory.wf nmax mem = true) {rc : Nat × Nat} (hr : rc.1 < nmax) (hc : rc.2 < nmax) :
    Memory.wf nmax (flipInto m old mem rc) = true := by
  simp only [flipInto]
  split
  · exact wf_write hm (isCellAddr_cellAddr hn hr hc) (toByte_lt _)
  · exact hm

/-- `MASK_APPLY` keeps the canonical form. -/
theorem wf_maskApply {nmax : Nat} (hn : nmax ≤ 256) (m : MaskId) (s : State) (hs : s.side ≤ nmax)
    (hm : Memory.wf nmax s.mem = true) : Memory.wf nmax (maskApply m s).mem = true := by
  have key : ∀ l : List (Nat × Nat), (∀ rc ∈ l, rc.1 < nmax ∧ rc.2 < nmax) → ∀ mem, Memory.wf nmax mem = true →
      Memory.wf nmax (l.foldl (flipInto m s) mem) = true := by
    intro l
    induction l with
    | nil => exact fun _ _ h => h
    | cons rc rest ih =>
      intro hl mem h
      obtain ⟨h1, h2⟩ := hl rc List.mem_cons_self
      exact ih (fun x hx => hl x (List.mem_cons_of_mem _ hx)) _ (wf_flipInto hn m s h h1 h2)
  refine key _ (fun rc h => ?_) _ hm
  obtain ⟨h1, h2⟩ := mem_coords.mp h
  omega

/-- A write to an existing cell keeps the canonical form. -/
theorem wf_writeCell {nmax r c : Nat} (hn : nmax ≤ 256) (hr : r < nmax) (hc : c < nmax) (v : Word) (s : State)
    (hm : Memory.wf nmax s.mem = true) : Memory.wf nmax (writeCell r c v s).mem = true :=
  wf_write hm (isCellAddr_cellAddr hn hr hc) (toByte_lt _)

/-! ## What the cells hold afterwards -/

/-- Flipping the listed cells leaves every other address as it is. -/
theorem read_foldl_flipInto_other (m : MaskId) (old : State) (addr : Nat) (l : List (Nat × Nat))
    (h : ∀ rc ∈ l, (old.cellAt rc.1 rc.2).func = false → maskFn m rc.1 rc.2 = true → addr ≠ cellAddr rc.1 rc.2)
    (mem : Memory) : Memory.read (l.foldl (flipInto m old) mem) addr = mem.read addr := by
  induction l generalizing mem with
  | nil => rfl
  | cons rc rest ih =>
    rw [List.foldl_cons, ih (fun x hx => h x (List.mem_cons_of_mem _ hx))]
    simp only [flipInto]
    split
    · rename_i hf
      exact read_write_other _ (h rc List.mem_cons_self hf.1 hf.2) _
    · rfl

/-- Flipping a list of cells leaves in a flipped cell the old colour inverted, however often it is listed. -/
theorem read_foldl_flipInto_flipped (m : MaskId) (old : State) {r c : Nat} (hc : c < 256) (l : List (Nat × Nat))
    (hl : ∀ rc ∈ l, rc.2 < 256) (hmem : (r, c) ∈ l) (hf : (old.cellAt r c).func = false)
    (hk : maskFn m r c = true) (mem : Memory) :
    Memory.read (l.foldl (flipInto m old) mem) (cellAddr r c)
      = some { old.cellAt r c with dark := !(old.cellAt r c).dark }.toByte := by
  have once : ∀ mem, Memory.read (flipInto m old mem (r, c)) (cellAddr r c)
      = some { old.cellAt r c with dark := !(old.cellAt r c).dark }.toByte := by
    intro mem
    simp [flipInto, hf, hk]
  have stays : ∀ l : List (Nat × Nat), (∀ rc ∈ l, rc.2 < 256) → ∀ mem : Memory,
      Memory.read mem (cellAddr r c) = some { old.cellAt r c with dark := !(old.cellAt r c).dark }.toByte →
      Memory.read (l.foldl (flipInto m old) mem) (cellAddr r c)
        = some { old.cellAt r c with dark := !(old.cellAt r c).dark }.toByte := by
    intro l
    induction l with
    | nil => exact fun _ _ h => h
    | cons rc rest ih =>
      intro hl mem h
      refine ih (fun x hx => hl x (List.mem_cons_of_mem _ hx)) _ ?_
      by_cases he : rc = (r, c)
      · rw [he, once]
      · have hne : cellAddr r c ≠ cellAddr rc.1 rc.2 := by
          intro ha
          obtain ⟨h1, h2⟩ := cellAddr_inj hc (hl rc List.mem_cons_self) ha
          exact he (Prod.ext h1.symm h2.symm)
        simp only [flipInto]
        split
        · rw [read_write_other _ hne, h]
        · exact h
  induction l generalizing mem with
  | nil => simp at hmem
  | cons rc rest ih =>
    by_cases he : rc = (r, c)
    · subst he
      exact stays rest (fun x hx => hl x (List.mem_cons_of_mem _ hx)) _ (once mem)
    · refine ih (fun x hx => hl x (List.mem_cons_of_mem _ hx)) ?_ _
      rcases List.mem_cons.mp hmem with h | h
      · exact absurd h.symm he
      · exact h

/-- `MASK_APPLY` changes no byte of a cell it does not flip. -/
theorem byteAt_maskApply_other (m : MaskId) (s : State) (addr : Nat)
    (h : ∀ r c, r < s.side → c < s.side → (s.cellAt r c).func = false → maskFn m r c = true →
      addr ≠ cellAddr r c) : (maskApply m s).byteAt addr = s.byteAt addr := by
  have := read_foldl_flipInto_other m s addr (coords s.side)
    (fun rc hrc hf hk => by obtain ⟨h1, h2⟩ := mem_coords.mp hrc; exact h _ _ h1 h2 hf hk) s.mem
  simp only [State.byteAt, maskApply] at *
  rw [this]

/-- `MASK_APPLY` flips a data cell of the active region where the formula is true. -/
theorem cellAt_maskApply_flipped (m : MaskId) (s : State) (hs : s.side ≤ 256) {r c : Nat} (hr : r < s.side)
    (hc : c < s.side) (hf : (s.cellAt r c).func = false) (hk : maskFn m r c = true) :
    (maskApply m s).cellAt r c = { s.cellAt r c with dark := !(s.cellAt r c).dark } := by
  have hl : ∀ rc ∈ coords s.side, rc.2 < 256 := fun rc h => by have := (mem_coords.mp h).2; omega
  have hr := read_foldl_flipInto_flipped m s (by omega : c < 256) (coords s.side) hl (mem_coords.mpr ⟨hr, hc⟩) hf hk s.mem
  simp only [maskApply, State.cellAt, State.byteAt] at *
  rw [hr]
  simp

end Sys2Proof.Machine
end

