-- ==== Sys2Proof/Laws/PerInstr.lean ====
section
/-! SUPPORT. What holds of every command as syntax, said per command. `EncodeFields` (30_encoding.md R70, R74, R77): the
word of a command carries its opcode, its opcode is a listed one, and RSV is 0. -/

namespace Sys2Proof.Laws.EncodeFields

/-- OP is the command's opcode, a listed one, and RSV is 0. -/
def Statement (i : Instr) : Prop :=
  opField (encode i) = i.opcode ∧ i.opcode ∈ listedOps ∧ rsvField (encode i) = 0#8

theorem nop : Statement .nop := by simp [Statement, encode, Instr.opcode, listedOps]

theorem setVersion (v : BitVec 8) : Statement (.setVersion v) := by simp [Statement, encode, Instr.opcode, listedOps]

theorem gfMul (a b : BitVec 8) : Statement (.gfMul a b) := by simp [Statement, encode, Instr.opcode, listedOps]

theorem gfExp (i : BitVec 8) : Statement (.gfExp i) := by simp [Statement, encode, Instr.opcode, listedOps]

theorem rsSetup (n : BitVec 8) : Statement (.rsSetup n) := by simp [Statement, encode, Instr.opcode, listedOps]

theorem rsClear : Statement .rsClear := by simp [Statement, encode, Instr.opcode, listedOps]

theorem rsFeed (d : BitVec 8) : Statement (.rsFeed d) := by simp [Statement, encode, Instr.opcode, listedOps]

theorem penScore (m : BitVec 3) : Statement (.penScore m) := by simp [Statement, encode, Instr.opcode, listedOps]

theorem maskEval : Statement .maskEval := by simp [Statement, encode, Instr.opcode, listedOps]

theorem maskApply (m : BitVec 3) : Statement (.maskApply m) := by simp [Statement, encode, Instr.opcode, listedOps]

theorem bchFormat (e : BitVec 2) (m : BitVec 3) : Statement (.bchFormat e m) := by
  simp [Statement, encode, Instr.opcode, listedOps]

theorem bchVersion (v : BitVec 6) : Statement (.bchVersion v) := by simp [Statement, encode, Instr.opcode, listedOps]

end Sys2Proof.Laws.EncodeFields
end

