-- ==== Sys2Proof/Tests/Slice0.lean ====
section
/-! SUPPORT. Tests of the model against the spec's words and vectors (30_encoding.md R73, 95_test_vectors.md), and the
witnesses: for every statement with hypotheses, a concrete state and operands that meet them. Every expected value is
the spec's. -/

namespace Sys2Proof.Tests

open Sys2Proof.Machine Sys2Proof.Reference

/-! ## Well-formedness -/

theorem test_wf_refuses_version_0 : (Instr.setVersion 0#8).wf Params.default = false := by decide

theorem test_wf_refuses_version_41 : (Instr.setVersion 41#8).wf Params.default = false := by decide

theorem test_wf_refuses_degree_0 : (Instr.rsSetup 0#8).wf Params.default = false := by decide

theorem test_wf_refuses_degree_31 : (Instr.rsSetup 31#8).wf Params.default = false := by decide

theorem test_wf_admits_the_bounds : (Instr.setVersion 1#8).wf Params.default = true ∧
    (Instr.setVersion 40#8).wf Params.default = true ∧ (Instr.rsSetup 1#8).wf Params.default = true ∧
    (Instr.rsSetup 30#8).wf Params.default = true := by decide

theorem test_wf_refuses_parameters : Params.wf { maxEc := 0#8, maxVersion := 40#8 } = false ∧
    Params.wf { maxEc := 65#8, maxVersion := 40#8 } = false ∧ Params.wf { maxEc := 30#8, maxVersion := 0#8 } = false ∧
    Params.wf { maxEc := 30#8, maxVersion := 41#8 } = false := by decide

/-! ## Decoding: each word is written field by field, RSV ++ B ++ A ++ OP (R70, R73) -/

/-- A word from its four fields, bit 31 first. -/
def wordOf (rsv b a op : BitVec 8) : Word := rsv ++ b ++ a ++ op

theorem test_decode_nop : decode (wordOf 0b00000000 0b00000000 0b00000000 0b00000000) = .instr .nop := by decide

theorem test_decode_setVersion :
    decode (wordOf 0b00000000 0b00000000 0b00101000 0b00000001) = .instr (.setVersion 40#8) := by decide

theorem test_decode_gfMul :
    decode (wordOf 0b00000000 0b11001010 0b01010011 0b00010000) = .instr (.gfMul 0x53#8 0xCA#8) := by decide

theorem test_decode_gfExp :
    decode (wordOf 0b00000000 0b00000000 0b11111110 0b00010001) = .instr (.gfExp 254#8) := by decide

theorem test_decode_rsSetup :
    decode (wordOf 0b00000000 0b00000000 0b00001010 0b00100000) = .instr (.rsSetup 10#8) := by decide

theorem test_decode_rsClear : decode (wordOf 0b00000000 0b00000000 0b00000000 0b00100001) = .instr .rsClear := by decide

theorem test_decode_rsFeed :
    decode (wordOf 0b00000000 0b00000000 0b10000001 0b00100010) = .instr (.rsFeed 0x81#8) := by decide

theorem test_decode_penScore :
    decode (wordOf 0b00000000 0b00000000 0b00000101 0b00110000) = .instr (.penScore 5#3) := by decide

theorem test_decode_maskEval : decode (wordOf 0b00000000 0b00000000 0b00000000 0b00110001) = .instr .maskEval := by decide

theorem test_decode_maskApply :
    decode (wordOf 0b00000000 0b00000000 0b00000110 0b00110010) = .instr (.maskApply 6#3) := by decide

theorem test_decode_bchFormat :
    decode (wordOf 0b00000000 0b00000101 0b00000010 0b01000000) = .instr (.bchFormat 2#2 5#3) := by decide

theorem test_decode_bchVersion :
    decode (wordOf 0b00000000 0b00000000 0b00101000 0b01000001) = .instr (.bchVersion 40#6) := by decide

/-- One word for each way of R74 and R75 to be rejected: vectors E2, E3, E5, E17, E20, E21, E22. -/
theorem test_decode_rejects : decode 0x00000100#32 = .badArg ∧ decode 0x01000000#32 = .badArg ∧
    decode 0xFF0000FF#32 = .illegalOp ∧ decode 0x00000830#32 = .badArg ∧ decode 0x00000440#32 = .badArg ∧
    decode 0x00080040#32 = .badArg ∧ decode 0x00004041#32 = .badArg := by decide

theorem test_decodeTableWord : decodeTableWord 32 0x00050240 = some (.bchFormat 2#2 5#3) ∧
    decodeTableWord 8 0x21 = some .rsClear ∧ decodeTableWord 32 0x02 = none := by decide

/-! ## One step of the Engine: the vectors of 95_test_vectors.md §2 -/

/-- The state after the Engine executes one command word. -/
def after (w : Nat) (s : State) : State :=
  match step (s.withFetchWord 32 w) with
  | .next t => t
  | .fault _ => s
  | .refused _ => s

/-- E1. -/
theorem test_nop : (after 0x00000000 State.reset).statusWord = 0x00000000#32 ∧
    (after 0x00000000 State.reset).irqStatWord = 1#32 := by decide

/-- E2. -/
theorem test_nop_bad_arg : (after 0x00000100 State.reset).statusWord = 0x00000200#32 ∧
    (after 0x00000100 State.reset).irqStatWord = 3#32 := by decide

/-- E8. -/
theorem test_setVersion : (after 0x00002801 State.reset).statusWord = 0x00010004#32 ∧
    (after 0x00002801 State.reset).cfgWord = 0x00B12800#32 := by decide

/-- E7. -/
theorem test_setVersion_41 : (after 0x00002901 State.reset).statusWord = 0x00010200#32 ∧
    (after 0x00002901 State.reset).cfgWord = 0#32 := by decide

/-- §2.1: the largest operands. -/
theorem test_gfMul : (after 0x00FFFF10 State.reset).result = 0xE2#32 ∧
    (after 0x00FFFF10 State.reset).statusWord = 0x00100000#32 := by decide +kernel

/-- §2.1: the first reduction. -/
theorem test_gfMul_reduces : (after 0x00800210 State.reset).result = 0x1D#32 := by decide +kernel

/-- §2.1: α^25. -/
theorem test_gfExp : (after 0x00001911 State.reset).result = 0x03#32 := by decide +kernel

/-- E24. -/
theorem test_gfExp_255 : (after 0x0000FF11 State.reset).result = 1#32 ∧
    (after 0x0000FF11 State.reset).statusWord = 0x00110000#32 := by decide +kernel

/-- §2.2: n = 7, and GEN[7] is 0. -/
theorem test_rsSetup : (after 0x00000720 State.reset).gen.take 8
      = [0x75#8, 0x44#8, 0x0B#8, 0xA4#8, 0x9A#8, 0x7A#8, 0x7F#8, 0x00#8] ∧
    (after 0x00000720 State.reset).statusWord = 0x00200002#32 := by decide +kernel

/-- E14. -/
theorem test_rsSetup_31 : (after 0x00001F20 State.reset).statusWord = 0x00200200#32 ∧
    (after 0x00001F20 State.reset).gen = State.reset.gen := by decide +kernel

/-- An encoder with n = 2 that has been fed 0x12 (half of vector RS-9): GEN = 02 03. -/
def fed : State :=
  { State.reset with
    ecLen := 2#8
    gen := [2#8, 3#8] ++ List.replicate 28 0#8
    rem := [0x36#8, 0x24#8] ++ List.replicate 28 0#8
    feedCnt := 1#16 }

/-- RS-9: feeding 0x34 next leaves 22 04. -/
theorem test_rsFeed : (after 0x00003422 fed).rem.take 3 = [0x22#8, 0x04#8, 0x00#8] ∧
    (after 0x00003422 fed).feedCnt = 2#16 := by decide +kernel

/-- E12. -/
theorem test_rsFeed_unconfigured : (after 0x00000522 State.reset).statusWord = 0x00220300#32 ∧
    (after 0x00000522 State.reset).feedCnt = 0#16 := by decide

/-- §2.2, corner vectors: REM and FEED_CNT are cleared, GEN and EC_LEN stay. -/
theorem test_rsClear : (after 0x00000021 fed).rem.take 2 = [0#8, 0#8] ∧ (after 0x00000021 fed).feedCnt = 0#16 ∧
    (after 0x00000021 fed).gen.take 2 = [2#8, 3#8] ∧ (after 0x00000021 fed).ecLen = 2#8 := by decide

/-- E11: BAD_ARG before NOT_CONFIGURED. -/
theorem test_rsClear_bad_arg : (after 0x00010021 State.reset).statusWord = 0x00210200#32 := by decide

/-- §2.3: row e = 2, m = 5. -/
theorem test_bchFormat : (after 0x00050240 State.reset).result = 0x0255#32 ∧
    (after 0x00050240 State.reset).resultAux = 0x5647#32 := by decide +kernel

/-- E20. -/
theorem test_bchFormat_bad_arg : (after 0x00000440 State.reset).statusWord = 0x00400200#32 ∧
    (after 0x00000440 State.reset).result = 0#32 := by decide

/-- §2.3: v = 40. -/
theorem test_bchVersion : (after 0x00002841 State.reset).result = 0x28C69#32 ∧
    (after 0x00002841 State.reset).resultAux = 0x28C69#32 := by decide +kernel

/-- §2.3: v = 63. -/
theorem test_bchVersion_63 : (after 0x00003F41 State.reset).result = 0x3FB85#32 := by decide +kernel

/-! ## The matrix, with version 1 set and every cell of the active region loaded -/

/-- Version 1 with the 21 × 21 cells loaded. -/
def loaded (f : Nat → Nat → QrCell) : State :=
  { State.reset with
    version := 1#8
    mem := (coords 21).map fun rc => (cellAddr rc.1 rc.2, (f rc.1 rc.2).toByte) }

theorem keysRise_keys {α : Type} (l : List (Nat × α)) : keysRise l = keysRise (l.map fun e => (e.1, ())) := by
  induction l with
  | nil => rfl
  | cons e rest ih =>
    cases rest with
    | nil => rfl
    | cons e' rest =>
      simp only [List.map_cons, keysRise] at ih ⊢
      rw [ih]

theorem coords_rise : keysRise ((coords 21).map fun rc => (cellAddr rc.1 rc.2, ())) = true := by decide +kernel

theorem loaded_rises (f : Nat → Nat → QrCell) : keysRise (loaded f).mem = true := by
  rw [keysRise_keys]
  simpa [loaded, Function.comp_def] using coords_rise

/-- What a loaded matrix holds. -/
theorem read_loaded (f : Nat → Nat → QrCell) {r c : Nat} (hr : r < 21) (hc : c < 21) :
    (loaded f).mem.read (cellAddr r c) = some (f r c).toByte :=
  assocGet_of_mem (loaded_rises f) (List.mem_map.mpr ⟨(r, c), mem_coords.mpr ⟨hr, hc⟩, rfl⟩)

theorem cellAt_loaded (f : Nat → Nat → QrCell) {r c : Nat} (hr : r < 21) (hc : c < 21) :
    (loaded f).cellAt r c = f r c := by
  simp only [State.cellAt, State.byteAt]
  rw [read_loaded f hr hc]
  exact ofByte_toByte _

theorem active_loaded (f : Nat → Nat → QrCell) :
    (loaded f).active = (List.range 21).map fun r => (List.range 21).map fun c => f r c := by
  have hs : (loaded f).side = 21 := rfl
  rw [State.active, hs]
  refine List.map_congr_left fun r hr => List.map_congr_left fun c hc => ?_
  exact cellAt_loaded f (List.mem_range.mp hr) (List.mem_range.mp hc)

/-- T1: all light function cells, row 10 dark at columns 5, 7, 8, 9 and 11. -/
def matrixT1 : State := loaded fun r c => { dark := r == 10 && [5, 7, 8, 9, 11].contains c, func := true }

/-- T1. -/
theorem test_penScore : (penScore 3#3 matrixT1).pen[3] = #v[774#32, 1152#32, 80#32, 90#32] ∧
    (penScore 3#3 matrixT1).score[3] = 2096#32 := by
  rw [penScore, matrixT1, active_loaded]
  decide +kernel

/-- V1, mask 5: all light data cells. -/
theorem test_penScore_formula :
    penaltyWords (candidate 5#3 (List.replicate 21 (List.replicate 21 { dark := false, func := false })))
      = #v[278#32, 147#32, 0#32, 10#32] := by decide +kernel

/-- V4: data cells, dark where r + c is odd. -/
def matrixV4 : State := loaded fun r c => { dark := (r + c) % 2 == 1, func := false }

/-- V4: mask 2 has the least score, 0. -/
theorem test_maskEval : (maskEval matrixV4).score
      = #v[2098#32, 399#32, 0#32, 399#32, 180#32, 242#32, 314#32, 568#32] ∧
    (maskEval matrixV4).selWord = 0x00000102#32 ∧ (maskEval matrixV4).bestScore = 0#32 := by
  rw [maskEval, scoreAll, matrixV4, active_loaded]
  decide +kernel

/-- V3: all eight tie, so the smallest id wins. -/
theorem test_maskEval_tie : bestMask (Vector.replicate 8 2098#32) = 0#3 := by decide +kernel

/-- §3.5: the program-3 matrix. -/
def matrixP3 : State := loaded fun r c =>
  if r < 8 ∧ c < 8 then { dark := [0, 1, 3].contains (max ((r : Int) - 3).natAbs ((c : Int) - 3).natAbs), func := true }
  else { dark := (7 * r + 3 * c) % 5 == 0, func := false }

/-- §3.5: `MASK_APPLY 1` makes the light data cell (0, 8) dark. -/
theorem test_maskApply : (maskApply 1#3 matrixP3).cellAt 0 8 = { dark := true, func := false } := by
  have h : matrixP3.cellAt 0 8 = { dark := false, func := false } := cellAt_loaded _ (by decide) (by decide)
  rw [cellAt_maskApply_flipped 1#3 matrixP3 (by decide) (by decide) (by decide) (by rw [h]) (by decide), h]
  rfl

/-- §3.5: `MASK_APPLY 1` leaves the function cell (0, 7) light. -/
theorem test_maskApply_function_cell : (maskApply 1#3 matrixP3).cellAt 0 7 = { dark := false, func := true } := by
  have h : matrixP3.cellAt 0 7 = { dark := false, func := true } := cellAt_loaded _ (by decide) (by decide)
  rw [← h]
  simp only [State.cellAt]
  rw [byteAt_maskApply_other]
  intro r c hr hc hf _ he
  have hc' : c < 21 := hc
  obtain ⟨rfl, rfl⟩ := cellAddr_inj (by decide) (by omega) he
  rw [h] at hf
  cases hf

/-! ## The bus and the Host: vectors B1, B2, B9, B10, B15, B17, B21 -/

theorem test_bus_constants : busRead 0x00000#20 State.reset = (State.reset, .data 0x51524543#32) ∧
    busRead 0x00004#20 State.reset = (State.reset, .data 0x00B1281E#32) := by decide

theorem test_bus_errors : (busRead 0x00002#20 State.reset).2 = .error 0x00002#20 ∧
    (busWrite 0x00000#20 0xF#4 0#32 State.reset).2 = .error 0x00000#20 ∧
    (busRead 0x00178#20 State.reset).2 = .error 0x00178#20 ∧ (busRead 0x102C4#20 State.reset).2 = .error 0x102C4#20 ∧
    (busRead 0x3C400#20 State.reset).2 = .error 0x3C400#20 ∧
    (busWrite 0x00008#20 0x1#4 0#32 State.reset).2 = .error 0x00008#20 := by decide +kernel

theorem test_bus_cell : (busRead 0x15050#20 (busWrite 0x15050#20 0xF#4 3#32 State.reset).1).2 = .data 3#32 ∧
    (busRead 0x15050#20 (busWrite 0x15050#20 0xF#4 0xFFFFFFFD#32 State.reset).1).2 = .data 1#32 := by decide +kernel

theorem test_bus_irqStat :
    (busRead 0x00010#20 (busWrite 0x00010#20 0xF#4 1#32 { State.reset with irqDone := true, irqErr := true }).1).2
      = .data 2#32 := by decide

/-- R80: `do nop` placed after one other operation. -/
theorem test_assemble_do : assemble [.ack, .doCmd 0#32]
    = some [.write 0x00010#20 0xF#4 3#32, .write 0x00014#20 0xF#4 0#32, .read 0x0000C#20 0, .bnz 0 1#32 2] := by decide

/-- A Host with two jumps before a read, a write between them, and a jump to itself at the end. -/
def hostAt (pc : Nat) : State :=
  { State.reset with
    hostProg := [.bnz 0 1#32 0, .beq 0 0#32 3, .write 0x00014#20 0xF#4 0#32, .read 0x0000C#20 0, .beq 0 0#32 4]
    hostPc := pc }

/-- R15: the jumps cost no step, so the Host's step is the read at position 3. -/
theorem test_hostStep_one_transaction : (hostAt 0).busPos = 3 ∧ (hostStep (hostAt 0)).hostPc = 4 ∧
    (hostStep (hostAt 0)).resp = some (.data 0#32) := by decide

/-- R15: going round in a jump makes no bus transaction. -/
theorem test_hostStep_round : hostStep (hostAt 4) = hostAt 4 := by decide

theorem test_assembleCommand : assembleCommand "bch_format" [1, 0] = some 0x00000140#32 ∧
    assembleCommand "gf_mul" [0x53, 0xCA] = some 0x00CA5310#32 := by decide

/-! ## Witnesses: states -/

/-- Version 1 set, the encoder not configured, no cell written. -/
def versioned : State := { State.reset with version := 1#8 }

/-- The encoder set up for one EC codeword, no version set. -/
def encoding1 : State := { State.reset with ecLen := 1#8, gen := genRegs 30 1 }

/-- A command word in flight, the Host with a program of its own, and two Host moves before the Engine's. -/
def flying (w : Word) : State :=
  { State.reset with
    inflight := some w
    hostProg := [.write 0x00014#20 0xF#4 0#32, .write 0x00008#20 0xF#4 0x80000000#32]
    schedule := [.host, .host] }

theorem regAt_zeros (n i : Nat) : regAt (List.replicate n 0#8) i = 0#8 := by
  simp only [regAt, List.getD, List.getElem?_replicate]
  split <;> rfl

theorem witness_inv_versioned : versioned.Inv ∧ versioned.version ≠ 0#8 ∧ versioned.ecLen = 0#8 where
  left :=
    { params_wf := by decide, mem_wf := rfl, rem_length := by decide, ecLen_le := by decide, version_le := by decide,
      gen_eq := by decide, rem_above := fun j _ => regAt_zeros 30 j, feed_unconfigured := fun _ => rfl,
      score_sum := by decide, sel_configured := by decide, temps_rise := rfl }
  right := by decide

theorem witness_inv_encoding : encoding1.Inv ∧ encoding1.ecLen = 1#8 ∧ encoding1.version = 0#8
    ∧ (∀ j, regAt encoding1.rem j = 0#8) where
  left :=
    { params_wf := by decide, mem_wf := rfl, rem_length := by decide, ecLen_le := by decide, version_le := by decide,
      gen_eq := rfl, rem_above := fun j _ => regAt_zeros 30 j, feed_unconfigured := by decide,
      score_sum := by decide, sel_configured := by decide, temps_rise := rfl }
  right := ⟨rfl, rfl, fun j => regAt_zeros 30 j⟩

/-! ## Witnesses: the commands. `CodesOf` has words on both sides of each of its conditions. -/

theorem witness_NopChangesOnlyTheRecord : opField 0x00000000#32 = 0x00#8 ∧ opField 0x00000100#32 = 0x00#8
    ∧ argA 0x00000100#32 ≠ 0#8 ∧ argB 0x00010000#32 ≠ 0#8 ∧ rsvField 0x01000000#32 ≠ 0#8 := by decide

theorem witness_SetVersion : opField 0x00000101#32 = 0x01#8 ∧ (argA 0x00000001#32).toNat = 0
    ∧ State.reset.params.maxVersion.toNat < (argA 0x00002901#32).toNat ∧ argB 0x00010101#32 ≠ 0#8
    ∧ 1 ≤ (1#8).toNat ∧ (40#8).toNat ≤ State.reset.params.maxVersion.toNat
    ∧ State.reset.params.maxVersion.toNat < (41#8).toNat ∧ State.reset.ecLen = 0#8 := by decide

theorem witness_GfMul : opField 0x00CA5310#32 = 0x10#8 ∧ rsvField 0x01CA5310#32 ≠ 0#8 := by decide

theorem witness_GfExp : opField 0x0000FF11#32 = 0x11#8 ∧ argB 0x00010011#32 ≠ 0#8 ∧ (255#8).toNat % 255 = 0 := by
  decide

theorem witness_RsSetup : opField 0x00000120#32 = 0x20#8 ∧ (argA 0x00000020#32).toNat = 0
    ∧ State.reset.params.maxEc.toNat < (argA 0x00001F20#32).toNat ∧ 1 ≤ (1#8).toNat
    ∧ (30#8).toNat ≤ State.reset.params.maxEc.toNat ∧ State.reset.params.maxEc.toNat < (31#8).toNat := by decide

theorem witness_RsClear : opField 0x00000021#32 = 0x21#8 ∧ argB 0x00010021#32 ≠ 0#8 ∧ encoding1.ecLen ≠ 0#8
    ∧ encoding1.rem = List.replicate encoding1.params.maxEc.toNat 0#8 ∧ encoding1.feedCnt = 0#16
    ∧ State.reset.ecLen = 0#8 := by decide

theorem witness_RsFeed : opField 0x00000522#32 = 0x22#8 ∧ argB 0x00010522#32 ≠ 0#8 ∧ encoding1.Inv
    ∧ encoding1.ecLen ≠ 0#8 ∧ encoding1.ecLen = 1#8 ∧ (∀ j, regAt encoding1.rem j = 0#8) ∧ versioned.Inv
    ∧ versioned.ecLen = 0#8 ∧ 0 + 1 < fed.ecLen.toNat :=
  ⟨by decide, by decide, witness_inv_encoding.1, by decide, rfl, witness_inv_encoding.2.2.2, witness_inv_versioned.1,
    rfl, by decide⟩

theorem witness_all_function_cells :
    ∀ r c, r < matrixT1.side → c < matrixT1.side → (matrixT1.cellAt r c).func = true := by
  intro r c hr hc
  rw [show matrixT1.cellAt r c = _ from cellAt_loaded _ hr hc]

theorem witness_PenScore : opField 0x00000730#32 = 0x30#8 ∧ 7 < (argA 0x00000830#32).toNat
    ∧ argB 0x00010030#32 ≠ 0#8 ∧ matrixT1.version ≠ 0#8 ∧ State.reset.version = 0#8 ∧ (3#3 : MaskId) ≠ 4#3 := by decide

theorem witness_MaskEval : opField 0x00000031#32 = 0x31#8 ∧ argA 0x00000131#32 ≠ 0#8 ∧ matrixV4.version ≠ 0#8
    ∧ State.reset.version = 0#8 := by decide

theorem witness_MaskApply : opField 0x00000732#32 = 0x32#8 ∧ 7 < (argA 0x00000832#32).toNat ∧ versioned.Inv
    ∧ versioned.version ≠ 0#8 ∧ encoding1.Inv ∧ encoding1.version = 0#8 :=
  ⟨by decide, by decide, witness_inv_versioned.1, by decide, witness_inv_encoding.1, rfl⟩

theorem witness_BchFormat : opField 0x00070340#32 = 0x40#8 ∧ 3 < (argA 0x00000440#32).toNat
    ∧ 7 < (argB 0x00080040#32).toNat := by decide

theorem witness_BchVersion : opField 0x00003F41#32 = 0x41#8 ∧ 63 < (argA 0x00004041#32).toNat
    ∧ argB 0x00010041#32 ≠ 0#8 := by decide

/-! ## Witnesses: result codes, encoding, steps -/

/-- EngineCompletesWithTheCheckedCode, CommandInFlightEnds. -/
theorem witness_in_flight : (flying 0x00000220#32).inflight = some 0x00000220#32
    ∧ (flying 0x00000220#32).busy = true := by decide

/-- FailedCommandHasNoOtherEffect. -/
theorem witness_failed_command : ∃ t, execute 0x00000021#32 State.reset = .next t ∧ t.err ≠ .ok :=
  ⟨_, rfl, by decide⟩

/-- ReservedOpcodeIsIllegal, at the reserved opcodes beside the listed ones. -/
theorem witness_reserved : opField 0x00000002#32 ∉ listedOps ∧ opField 0x0000000F#32 ∉ listedOps
    ∧ opField 0x00000012#32 ∉ listedOps ∧ opField 0x00000023#32 ∉ listedOps ∧ opField 0x00000042#32 ∉ listedOps
    ∧ opField 0xFF0000FF#32 ∉ listedOps ∧ State.reset.inflight = none
    ∧ opField 0x01000000#32 ∈ listedOps ∧ rsvField 0x01000000#32 ≠ 0#8 ∧ opField 0x00002901#32 ∈ listedOps
    ∧ argsInRange State.reset.params (opField 0x00002901#32) (argA 0x00002901#32) (argB 0x00002901#32) = false := by
  decide

/-- ResultsWrittenOnlyByResultCommands. -/
theorem witness_result_written : ∃ t, exec (.gfMul 1#8 255#8) State.reset = .next t ∧ ¬ SameResults State.reset t :=
  ⟨_, rfl, fun h => absurd h.1 (by decide +kernel)⟩

/-- EncodeInvertsDecode. -/
theorem witness_decodes : decode 0x00050240#32 = .instr (.bchFormat 2#2 5#3) := by decide

/-- StepRunsTheDecodedCommand. -/
theorem witness_engine_moves :
    let s := { flying 0x00000220#32 with schedule := [] }
    s.inflight = some 0x00000220#32 ∧ nextMove s = .engine ∧ decode 0x00000220#32 = .instr (.rsSetup 2#8) := by decide

/-- DefaultOrderCompletesCommands. -/
theorem witness_default_order :
    let s := { flying 0x00000220#32 with schedule := [] }
    s.schedule = [] ∧ s.inflight = some 0x00000220#32 ∧ { s with inflight := none }.inflight = none
      ∧ { s with inflight := none }.busPos < s.hostProg.length := by decide

/-- ResetMeetsTheInvariant: the smallest and the largest implementation. -/
theorem witness_reset_params : Params.wf { maxEc := 1#8, maxVersion := 1#8 } = true
    ∧ Params.wf { maxEc := 64#8, maxVersion := 40#8 } = true ∧ State.reset.params.wf = true
    ∧ keysRise State.reset.temps = true := by decide

/-- DefaultOrderCompletesCommands: a run that has ended. -/
theorem witness_ended : State.reset.ended ∧ State.reset.schedule = [] := ⟨⟨by decide, rfl⟩, rfl⟩

/-- StepKeepsTheInvariant. -/
theorem witness_step_from_inv : ∃ t, versioned.Inv ∧ step versioned = .next t := ⟨_, witness_inv_versioned.1, rfl⟩

/-- LaterEventDecidesDone, CompletionRaisesTheEnabledInterrupt. -/
theorem witness_engine_step : ∃ t, (flying 0#32).inflight = some 0#32 ∧ engineStep (flying 0#32) = .next t
    ∧ (writeIrqStat 0x3#32 t).irq = false := ⟨_, rfl, rfl, by decide⟩

/-! ## Witnesses: control and the bus -/

/-- ResetLeavesResetValues: a pulse of `rst` next. -/
theorem witness_rst_next : nextMove { flying 0#32 with schedule := [.rst] } = .rst := by decide

/-- SoftResetCancelsAndClears, CtrlWriteSetsTheEnables. -/
theorem witness_ctrl_words : (0x80000003#32).getLsbD 31 = true ∧ (0x7FFFFFFF#32).getLsbD 31 = false := by decide

/-- BusErrorsHaveFiveCauses: one write for each cause. -/
theorem witness_write_errors : State.reset.params.wf = true ∧ (0x00009#20).toNat % 4 ≠ 0 ∧ (0xE#4 : BitVec 4) ≠ 0xF#4
    ∧ decodeAddr State.reset.params 0x00030#20 = none
    ∧ (Target.gen 29).present State.reset.params = true ∧ (Target.gen 29).addr = (0x00174#20).toNat
    ∧ (Target.gen 29).readOnly = true
    ∧ (flying 0#32).busy = true ∧ (0x00014#20).toNat ≠ Target.ctrl.addr ∧ (0x00014#20).toNat ≠ Target.irqStat.addr := by
  decide +kernel

/-- ReadsHaveNoSideEffect, BusyReadsAreFreeOrValid, BusyWritesAreRefused: an address of each kind. -/
theorem witness_addresses : decodeAddr State.reset.params 0x0000C#20 = some .status
    ∧ decodeAddr State.reset.params 0x00008#20 = some .ctrl ∧ decodeAddr State.reset.params 0x00010#20 = some .irqStat
    ∧ decodeAddr State.reset.params 0x00018#20 = some .result
    ∧ decodeAddr State.reset.params 0x3C2C0#20 = some (.cell 176 176)
    ∧ State.reset.busy = false ∧ (flying 0#32).busy = true ∧ (flying 0#32).params = State.reset.params := by
  decide +kernel

/-- AddressMapIsExact: the largest and the smallest implementation. -/
theorem witness_address_map : Params.wf { maxEc := 64#8, maxVersion := 40#8 } = true
    ∧ Params.wf { maxEc := 1#8, maxVersion := 1#8 } = true
    ∧ (Target.gen 63).present { maxEc := 64#8, maxVersion := 40#8 } = true
    ∧ (Target.rem 0).present { maxEc := 1#8, maxVersion := 1#8 } = true
    ∧ (Target.cell 176 176).present { maxEc := 64#8, maxVersion := 40#8 } = true
    ∧ (Target.cell 20 20).present { maxEc := 1#8, maxVersion := 1#8 } = true := by decide +kernel

/-- EveryCommandWordIsAccepted. -/
theorem witness_nothing_in_flight : State.reset.inflight = none ∧ (flying 0#32).inflight ≠ none := by decide

/-- CellWriteReadsBack: the first and the last cell. -/
theorem witness_cell_write : State.reset.params.wf = true ∧ 0 < State.reset.params.nmax ∧ 176 < State.reset.params.nmax
    ∧ State.reset.inflight = none := by decide

/-- WindowSelectsOffsets: the base of the window. -/
theorem witness_window : offsetOfSystem Config.pBase = some 0#20 := by
  unfold offsetOfSystem
  generalize Config.pBase = b
  rw [if_pos ⟨Nat.le_refl b, by omega⟩, Nat.sub_self]

/-! ## Witnesses: whole-machine rules -/

/-- HostCannotDisturbACommand: the Host has a write to CMD, then a soft reset, ready. -/
theorem witness_busy_host : (flying 0#32).busy = true ∧ (flying 0#32).hostProg[(flying 0#32).busPos]?
    = some (.write 0x00014#20 0xF#4 0#32) := by decide

/-- MatrixChangesOnlyByWriteApplyOrReset: the Host about to write a cell. -/
theorem witness_cell_step : ∃ t, step { versioned with hostProg := [.write 0x15050#20 0xF#4 3#32] } = .next t :=
  ⟨_, rfl⟩

/-- HostFollowsItsProgram: from position 0 two jumps, the second one taken, lead to the read. -/
theorem witness_host_read : Jumps (hostAt 0) (hostAt 0).hostPc 3
    ∧ (hostAt 0).hostProg[3]? = some (.read 0x0000C#20 0) ∧ (busRead 0x0000C#20 (hostAt 0)).2 = .data 0#32 :=
  ⟨.bnz (pos := 0) rfl (.beq (pos := 1) rfl (.here 3)), rfl, by decide⟩

/-- HostFollowsItsProgram: a read that ends in ERROR. -/
theorem witness_host_read_error : (busRead 0x00002#20 State.reset).2 = .error 0x00002#20 := by decide

/-- HostFollowsItsProgram: the write at position 2, no operation at position 5. -/
theorem witness_host_write_end : Jumps (hostAt 2) (hostAt 2).hostPc 2
    ∧ (hostAt 2).hostProg[2]? = some (.write 0x00014#20 0xF#4 0#32) ∧ Jumps (hostAt 5) (hostAt 5).hostPc 5
    ∧ (hostAt 5).hostProg[5]? = none := ⟨.here 2, rfl, .here 5, rfl⟩

/-- HostFollowsItsProgram: from position 4 the Host goes round for ever. -/
theorem witness_host_round : ∀ pos, Jumps (hostAt 4) (hostAt 4).hostPc pos →
    ∃ t v target, (hostAt 4).hostProg[pos]? = some (.beq t v target) := by
  have h4 : ∀ {a b}, Jumps (hostAt 4) a b → a = 4 → b = 4 := by
    intro a b h
    induction h with
    | here pos => exact id
    | bnz h _ _ => rintro rfl; cases h
    | beq h _ ih => rintro rfl; cases h; exact ih rfl
  intro pos h
  obtain rfl := h4 h rfl
  exact ⟨0, 0#32, 4, rfl⟩

/-- EngineKeepsFunctionCells: `MASK_APPLY` in flight, a function cell in the region. -/
theorem witness_apply_in_flight : ∃ t, engineStep { matrixT1 with inflight := some 0x00000332#32 } = .next t
    ∧ (matrixT1.cellAt 10 7).func = true ∧ decode 0x00000031#32 = .instr .maskEval :=
  ⟨_, rfl, witness_all_function_cells 10 7 (by decide) (by decide), by decide⟩

/-- ScoresDependOnTheActiveRegion: the second state differs from the first outside the active region. -/
theorem witness_same_region :
    let s₂ := { versioned with mem := [(cellAddr 21 0, 3#8)] }
    versioned.version = s₂.version ∧ versioned.version ≠ 0#8 ∧ versioned.mem ≠ s₂.mem
      ∧ ∀ r c, r < versioned.side → c < versioned.side → versioned.cellAt r c = s₂.cellAt r c := by
  refine ⟨rfl, by decide, by decide, fun r c hr hc => ?_⟩
  have hr : r < 21 := hr
  have hc : c < 21 := hc
  have hne : cellAddr r c ≠ cellAddr 21 0 := by simp only [cellAddr]; omega
  have h : Memory.read [(cellAddr 21 0, 3#8)] (cellAddr r c) = none := by
    simp [Memory.read, assocGet, hne]
  simp only [State.cellAt, State.byteAt]
  rw [h]
  rfl

/-- StatedReadsRestOnNoFreeValue: a written cell while idle, and STATUS while busy. -/
theorem witness_stated_reads : decodeAddr matrixT1.params 0x10000#20 = some (.cell 0 0)
    ∧ readStated matrixT1 (.cell 0 0) ∧ readStated (flying 0#32) .status := by
  refine ⟨by decide +kernel, ⟨by decide, fun r c h => ?_⟩, ⟨fun _ => rfl, fun r c h => by cases h⟩⟩
  cases h
  decide +kernel

theorem witness_region_loaded : matrixT1.regionLoaded := by
  intro r c hr hc
  simp only [State.written]
  rw [show matrixT1.mem.read (cellAddr r c) = _ from read_loaded _ hr hc]
  rfl

/-- StatedCommandsRestOnNoFreeValue: a command that reads a loaded matrix, and one that reads none. -/
theorem witness_stated_commands : commandStated matrixT1 0x00000031#32 ∧ commandStated State.reset 0x00CA5310#32 :=
  ⟨fun _ => witness_region_loaded, fun h => absurd h (by decide)⟩

/-! ## Witnesses: arithmetic, Reed-Solomon, BCH, penalties -/

/-- GfMultiplicationIsAFieldProduct, AlphaIsPrimitive. -/
theorem witness_nonzero : (0xFF#8 : Byte) ≠ 0#8 ∧ 254 < 255 := by decide

/-- GeneratorHasItsRoots, RemainderIsLongDivision, CodewordHasTheGeneratorsRoots: the least and the largest degree. -/
theorem witness_degrees : 0 < (1#8).toNat ∧ 1 ≤ (1#8).toNat ∧ 1 ≤ (30#8).toNat
    ∧ (30#8).toNat ≤ State.reset.params.maxEc.toNat := by decide

/-- BchWordsAreMultiples. -/
theorem witness_bch : (∃ t, exec (.bchFormat 3#2 7#3) State.reset = .next t)
    ∧ ∃ t, exec (.bchVersion 63#6) State.reset = .next t := ⟨⟨_, rfl⟩, ⟨_, rfl⟩⟩

/-- CandidateFlipsDataCells: the last cell of the region. -/
theorem witness_region : 20 < versioned.side := by decide

/-- Penalty1SumsMaximalRuns to PenaltiesAreBounded: the largest matrix. -/
theorem witness_square : square 177 (List.replicate 177 (List.replicate 177 true)) ∧ 0 < 177 ∧ 177 ≤ 177 :=
  ⟨⟨List.length_replicate, fun row h => by rw [List.eq_of_mem_replicate h, List.length_replicate]⟩, by decide,
    by decide⟩

end Sys2Proof.Tests
end

section
/-! PROOFS. Which move comes next when none is scheduled, and the step that makes it (00_scope.md R15,
70_reset_and_hazards.md R218, R219; log entries 4 and 17). -/

namespace Sys2Proof.Machine

/-! ## The next move -/

theorem popMove_of_schedule_nil {s : State} (h : s.schedule = []) : popMove s = s := by
  cases s
  cases h
  rfl

theorem nextMove_engine_of_inflight {s : State} {w : Word} (h : s.schedule = []) (hw : s.inflight = some w) :
    nextMove s = .engine := by
  simp [nextMove, h, State.busy, hw]

theorem nextMove_host_of_idle {s : State} (h : s.schedule = []) (hi : s.inflight = none) : nextMove s = .host := by
  simp [nextMove, h, State.busy, hi]

/-! ## The step of each agent -/

theorem step_of_host {s : State} (h : nextMove s = .host) : step s = .next (hostStep (popMove s)) := by
  simp only [step, h, makeMove]

theorem step_of_engine {s : State} {w : Word} (h : nextMove s = .engine) (hw : s.inflight = some w) :
    step s = execute w (popMove s) := by
  simp only [step, h, makeMove, engineStep, popMove_inflight, hw]

/-- R219: a Host with no transaction left changes nothing. -/
theorem hostStep_of_length_le {s : State} (h : s.hostProg.length ≤ s.busPos) : hostStep s = s := by
  simp only [hostStep, List.getElem?_eq_none h]

/-! ## The default order -/

/-- Settles O21: the empty schedule gives the Engine the move exactly when a command is in flight, and an ended run is
a Host step with no transaction left. -/
theorem defaultOrderCompletesCommands : Obligations.DefaultOrderCompletesCommands := by
  intro s h
  have idle (hi : s.inflight = none) : step s = .next (hostStep (popMove s)) :=
    step_of_host (nextMove_host_of_idle h hi)
  refine ⟨fun w hw => step_of_engine (nextMove_engine_of_inflight h hw) hw, idle, ?_⟩
  rintro ⟨hpos, hi⟩
  rw [idle hi, popMove_of_schedule_nil h, hostStep_of_length_le hpos]

end Sys2Proof.Machine
end

section
/-! PROOFS. Every step keeps the invariant (10_state.md R29 to R37): each update of the state keeps it, so the Engine's
commands, the Host's transactions and a reset do. -/

namespace Sys2Proof.Machine

/-! ## Register arrays -/

@[simp] theorem regAt_replicate_zero (n i : Nat) : regAt (List.replicate n 0#8) i = 0#8 := by
  simp only [regAt, List.getD, List.getElem?_replicate]
  split <;> rfl

/-- `GEN` of degree 0 is all zeros (R46). -/
@[simp] theorem genRegs_zero (count : Nat) : genRegs count 0 = List.replicate count 0#8 := by
  simp [genRegs, List.map_const']

@[simp] theorem length_rsStep (n : Nat) (gen rem : List Byte) (d : Byte) :
    (rsStep n gen rem d).length = rem.length := by
  simp [rsStep]

/-- A division step leaves the registers above the degree as they are (R103). -/
theorem regAt_rsStep_above {n j : Nat} (h : n ≤ j) (gen rem : List Byte) (d : Byte) :
    regAt (rsStep n gen rem d) j = regAt rem j := by
  by_cases hj : j < rem.length
  · simp [rsStep, regAt, hj, show ¬ j + 1 < n by omega, show ¬ j + 1 = n by omega]
  · simp [regAt, hj]

/-! ## Scores -/

@[simp] theorem scoreAt_set_same (score : Vector Word 8) (m : MaskId) (x : Word) :
    scoreAt (score.set m.toNat x m.isLt) m = x := by
  simp [scoreAt]

theorem scoreAt_set_other (score : Vector Word 8) {m k : MaskId} (h : k ≠ m) (x : Word) :
    scoreAt (score.set m.toNat x m.isLt) k = scoreAt score k :=
  Vector.getElem_set_ne _ _ fun he => h (BitVec.eq_of_toNat_eq he.symm)

@[simp] theorem penAt_set_same (pen : Vector (Vector Word 4) 8) (m : MaskId) (x : Vector Word 4) (k : BitVec 2) :
    penAt (pen.set m.toNat x m.isLt) m k = x[k.toNat]'k.isLt := by
  simp [penAt]

theorem penAt_set_other (pen : Vector (Vector Word 4) 8) {m k : MaskId} (h : k ≠ m) (x : Vector Word 4)
    (i : BitVec 2) : penAt (pen.set m.toNat x m.isLt) k i = penAt pen k i := by
  simp only [penAt]
  rw [Vector.getElem_set_ne _ _ fun he => h (BitVec.eq_of_toNat_eq he.symm)]

/-- The four register words add up to the total of the candidate (R127, R128). -/
theorem sum_penaltyWords (mat : List (List Bool)) :
    (penaltyWords mat)[0] + (penaltyWords mat)[1] + (penaltyWords mat)[2] + (penaltyWords mat)[3]
      = BitVec.ofNat 32 (totalPenalty mat) := by
  simp [penaltyWords, totalPenalty, BitVec.ofNat_add]

/-- Scoring any list of candidates writes `SCORE` and `PEN` and nothing else (R128). -/
theorem foldl_scoreInto_frame (cells : List (List QrCell)) (ms : List MaskId) (s : State) :
    ∃ score pen, ms.foldl (fun t m => scoreInto cells m t) s = { s with score := score, pen := pen } := by
  induction ms generalizing s with
  | nil => exact ⟨s.score, s.pen, rfl⟩
  | cons m ms ih =>
    obtain ⟨score, pen, h⟩ := ih (scoreInto cells m s)
    exact ⟨score, pen, h⟩

theorem scoreAll_frame (s : State) : ∃ score pen, scoreAll s = { s with score := score, pen := pen } :=
  foldl_scoreInto_frame s.active allMasks s

@[simp] theorem scoreAll_version (s : State) : (scoreAll s).version = s.version := by
  obtain ⟨score, pen, h⟩ := scoreAll_frame s
  rw [h]

/-! ## Result codes -/

theorem codeIf_eq_ok {cond : Bool} {code : ResultCode} (h : code ≠ .ok) : codeIf cond code = .ok ↔ cond = true := by
  cases cond <;> simp [codeIf, h]

theorem le_of_setVersionCode {v : Byte} {s : State} (h : setVersionCode v s = .ok) :
    v.toNat ≤ s.params.maxVersion.toNat := by
  simp only [setVersionCode, codeIf_eq_ok (by decide : ResultCode.badArg ≠ .ok), Bool.and_eq_true,
    decide_eq_true_eq] at h
  exact h.2

theorem le_of_rsSetupCode {n : Byte} {s : State} (h : rsSetupCode n s = .ok) : n.toNat ≤ s.params.maxEc.toNat := by
  simp only [rsSetupCode, codeIf_eq_ok (by decide : ResultCode.badArg ≠ .ok), Bool.and_eq_true,
    decide_eq_true_eq] at h
  exact h.2

theorem ecLen_ne_of_needsEcLen {s : State} (h : needsEcLen s = .ok) : s.ecLen ≠ 0#8 := by
  simpa [needsEcLen, codeIf_eq_ok, State.rsReady] using h

theorem version_ne_of_needsVersion {s : State} (h : needsVersion s = .ok) : s.version ≠ 0#8 := by
  simpa [needsVersion, codeIf_eq_ok, State.verReady] using h

/-! ## Reset -/

/-- A reset of an implementation with parameters in range meets the invariant (R46). -/
theorem inv_resetBlock {s : State} (hp : s.params.wf = true) (ht : keysRise s.temps = true) : (resetBlock s).Inv where
  params_wf := hp
  mem_wf := rfl
  rem_length := List.length_replicate
  ecLen_le := Nat.zero_le _
  version_le := Nat.zero_le _
  gen_eq := (genRegs_zero _).symm
  rem_above := fun j _ => regAt_replicate_zero _ j
  feed_unconfigured := fun _ => rfl
  score_sum := fun m => by simp [scoreAt, penSum, penAt]
  sel_configured := fun h => nomatch h
  temps_rise := ht

theorem State.Inv.resetBlock {s : State} (h : s.Inv) : (resetBlock s).Inv := inv_resetBlock h.params_wf h.temps_rise

/-! ## Updates that leave every field the invariant speaks of -/

theorem State.Inv.complete {s : State} (h : s.Inv) (code : ResultCode) (op : Byte) : (complete code op s).Inv :=
  { h with }

theorem State.Inv.popMove {s : State} (h : s.Inv) : (popMove s).Inv := { h with }

theorem State.Inv.setResult {s : State} (h : s.Inv) (x y : Word) : (setResult x y s).Inv := { h with }

theorem State.Inv.issue {s : State} (h : s.Inv) (w : Word) : (issue w s).Inv := { h with }

theorem State.Inv.writeIrqStat {s : State} (h : s.Inv) (v : Word) : (writeIrqStat v s).Inv := { h with }

theorem State.Inv.afterBus {x : State × Response} (h : x.1.Inv) (pos : Nat) : (afterBus pos x).Inv := { h with }

/-! ## The effects of the commands -/

theorem State.Inv.setVersion {s : State} (h : s.Inv) {v : Byte} (hc : setVersionCode v s = .ok) :
    (setVersion v s).Inv where
  __ := h
  version_le := le_of_setVersionCode hc
  sel_configured := fun hs => nomatch hs

theorem State.Inv.clearRem {s : State} (h : s.Inv) : (clearRem s).Inv where
  __ := h
  rem_length := List.length_replicate
  rem_above := fun j _ => regAt_replicate_zero _ j
  feed_unconfigured := fun _ => rfl

theorem State.Inv.rsSetup {s : State} (h : s.Inv) {n : Byte} (hc : rsSetupCode n s = .ok) : (rsSetup n s).Inv where
  __ := h.clearRem
  ecLen_le := le_of_rsSetupCode hc
  gen_eq := rfl
  rem_above := fun j _ => regAt_replicate_zero _ j
  feed_unconfigured := fun _ => rfl

theorem State.Inv.rsFeed {s : State} (h : s.Inv) {d : Byte} (hc : needsEcLen s = .ok) : (rsFeed d s).Inv where
  __ := h
  rem_length := (length_rsStep ..).trans h.rem_length
  rem_above := fun j hj => (regAt_rsStep_above hj ..).trans (h.rem_above j hj)
  feed_unconfigured := fun he => absurd he (ecLen_ne_of_needsEcLen hc)

/-- The scoring of one candidate writes its score as the sum of its contributions and leaves the others (R128). -/
theorem State.Inv.scoreInto {s : State} (h : s.Inv) (cells : List (List QrCell)) (m : MaskId) :
    (scoreInto cells m s).Inv where
  __ := h
  score_sum := fun k => by
    by_cases hk : k = m
    · subst hk
      simpa [penSum] using (sum_penaltyWords (candidate k cells)).symm
    · simpa [penSum, scoreAt_set_other _ hk, penAt_set_other _ hk] using h.score_sum k

theorem State.Inv.scoreAll {s : State} (h : s.Inv) : (scoreAll s).Inv := by
  have keeps : ∀ (ms : List MaskId) (t : State), t.Inv →
      (ms.foldl (fun t m => Machine.scoreInto s.active m t) t).Inv := by
    intro ms
    induction ms with
    | nil => exact fun _ ht => ht
    | cons m ms ih => exact fun t ht => ih _ (ht.scoreInto s.active m)
  exact keeps allMasks s h

theorem State.Inv.selectBest {s : State} (h : s.Inv) (hv : s.version ≠ 0#8) : (selectBest s).Inv :=
  { h with sel_configured := fun _ => hv }

theorem State.Inv.maskEval {s : State} (h : s.Inv) (hc : needsVersion s = .ok) : (maskEval s).Inv :=
  h.scoreAll.selectBest (by rw [scoreAll_version]; exact version_ne_of_needsVersion hc)

theorem State.Inv.nmax_le {s : State} (h : s.Inv) : s.params.nmax ≤ 256 :=
  (Machine.nmax_le h.params_wf).trans (by decide)

theorem State.Inv.maskApply {s : State} (h : s.Inv) (m : MaskId) : (maskApply m s).Inv where
  __ := h
  mem_wf := wf_maskApply h.nmax_le m s (side_le_nmax h.version_le) h.mem_wf
  sel_configured := fun hs => nomatch hs

theorem State.Inv.effectOf {s : State} (h : s.Inv) (i : Instr) (hc : codeOf i s = .ok) : (effectOf i s).Inv := by
  cases i with
  | nop => exact h
  | setVersion v => exact h.setVersion hc
  | gfMul a b => exact h.setResult _ _
  | gfExp e => exact h.setResult _ _
  | rsSetup n => exact h.rsSetup hc
  | rsClear => exact h.clearRem
  | rsFeed d => exact h.rsFeed hc
  | penScore m => exact h.scoreInto s.active m
  | maskEval => exact h.maskEval hc
  | maskApply m => exact h.maskApply m
  | bchFormat e m => exact h.setResult _ _
  | bchVersion v => exact h.setResult _ _

/-- Every word that the Engine executes keeps the invariant. -/
theorem State.Inv.execute {w : Word} {s t : State} (h : s.Inv) (he : execute w s = .next t) : t.Inv := by
  obtain ⟨i, -, hi⟩ | ⟨-, rfl⟩ | ⟨-, rfl⟩ := execute_cases he
  · obtain ⟨hc, rfl⟩ | ⟨-, rfl⟩ := exec_cases hi
    · exact (h.effectOf i hc).complete _ _
    · exact h.complete _ _
  · exact h.complete _ _
  · exact h.complete _ _

/-! ## The Host's transactions -/

theorem State.Inv.writeCtrl {s : State} (h : s.Inv) (v : Word) : (writeCtrl v s).Inv := by
  unfold Machine.writeCtrl
  split
  · exact h.resetBlock
  · exact { h with }

/-- A write to a mapped cell keeps the canonical form of the matrix RAM. -/
theorem State.Inv.writeCell {s : State} (h : s.Inv) {a : BusAddr} {r c : Nat}
    (ha : decodeAddr s.params a = some (.cell r c)) (v : Word) : (writeCell r c v s).Inv where
  __ := h
  mem_wf := by
    obtain ⟨hcell, -, -, haddr⟩ := decodeAddr_cell ha
    exact wf_write h.mem_wf (haddr ▸ hcell) (toByte_lt _)

theorem State.Inv.busWrite {s : State} (h : s.Inv) (a : BusAddr) (strobes : BitVec 4) (v : Word) :
    (busWrite a strobes v s).1.Inv := by
  obtain he | ⟨t, ht, -, hw, -, he⟩ := busWrite_cases a strobes v s
  · rw [he]; exact h
  · rw [he]
    obtain rfl | rfl | rfl | ⟨r, c, rfl⟩ := writable_cases hw
    · exact h.writeCtrl v
    · exact h.writeIrqStat v
    · exact h.issue v
    · exact h.writeCell ht v

theorem State.Inv.busRead {s : State} (h : s.Inv) (a : BusAddr) : (busRead a s).1.Inv := by
  obtain ⟨-, he⟩ | ⟨t, -, ⟨-, -, he⟩ | ⟨-, he⟩⟩ := busRead_cases a s <;> rw [he]
  · exact h
  · exact { h with }
  · exact h

/-- A read stores its answer under its temporary, which keeps the temporaries rising. -/
theorem State.Inv.storeData {s : State} (h : s.Inv) (t : Nat) (r : Response) : (storeData t r s).Inv := by
  cases r with
  | written => exact h
  | data v => exact { h with temps_rise := keysRise_assocSet t v s.temps h.temps_rise }
  | error a => exact h

theorem State.Inv.hostStep {s : State} (h : s.Inv) : (hostStep s).Inv := by
  obtain he | ⟨a, strobes, v, -, he⟩ | ⟨a, t, -, he⟩ := hostStep_cases s <;> rw [he]
  · exact h
  · exact (h.busWrite a strobes v).afterBus _
  · exact ((h.busRead a).afterBus _).storeData _ _

/-! ## The obligations -/

/-- Settles O24: the Host's transactions, the word the Engine executes and a reset each keep the invariant. -/
theorem stepKeepsTheInvariant : Obligations.StepKeepsTheInvariant := by
  intro s t h hst
  obtain ⟨-, rfl⟩ | ⟨-, -, rfl⟩ | ⟨-, w, -, he⟩ | ⟨-, rfl⟩ := step_cases hst
  · exact h.popMove.hostStep
  · exact h.popMove
  · exact h.popMove.execute he
  · exact h.popMove.resetBlock

/-- Settles O23: State.reset has the default parameters, which are in range, and no temporaries. -/
theorem resetMeetsTheInvariant : Obligations.ResetMeetsTheInvariant :=
  ⟨{ inv_resetBlock (s := State.reset) rfl rfl with }, fun _ => inv_resetBlock, fun _ hp => inv_resetBlock hp rfl⟩

end Sys2Proof.Machine
end

section
/-! PROOFS. Who changes RESULT and the matrix (10_state.md R28, R40, R41), said once per update: the commands by their
effect, the Host by the target of its write. -/

namespace Sys2Proof.Machine

/-! ## Commands -/

theorem sameResults_maskEval (s : State) : SameResults s (maskEval s) := by
  obtain ⟨score, pen, h⟩ := scoreAll_frame s
  rw [maskEval, h]
  exact ⟨rfl, rfl⟩

/-- The effect of every other command leaves the results. -/
theorem effectOf_results (i : Instr) (s : State) :
    SameResults s (effectOf i s) ∨ (∃ a b, i = .gfMul a b) ∨ (∃ e, i = .gfExp e) ∨ (∃ e m, i = .bchFormat e m)
      ∨ ∃ v, i = .bchVersion v := by
  cases i with
  | gfMul a b => exact .inr (.inl ⟨a, b, rfl⟩)
  | gfExp e => exact .inr (.inr (.inl ⟨e, rfl⟩))
  | bchFormat e m => exact .inr (.inr (.inr (.inl ⟨e, m, rfl⟩)))
  | bchVersion v => exact .inr (.inr (.inr (.inr ⟨v, rfl⟩)))
  | maskEval => exact .inl (sameResults_maskEval s)
  | nop | setVersion | rsSetup | rsClear | rsFeed | penScore | maskApply => exact .inl ⟨rfl, rfl⟩

/-- Settles O16: a failed command writes the record only, and an effect that changes the results is one of four. -/
theorem resultsWrittenOnlyByResultCommands : Obligations.ResultsWrittenOnlyByResultCommands := by
  intro i s t h hne
  obtain ⟨-, rfl⟩ | ⟨-, rfl⟩ := exec_cases h
  · exact ⟨rfl, (effectOf_results i s).resolve_left hne⟩
  · exact absurd ⟨rfl, rfl⟩ hne

/-! ## The matrix RAM -/

/-- The matrix RAM reads the same when neither its list nor the count of resets changes. -/
theorem sameCells_of_mem_eq {s t : State} (hm : t.mem = s.mem) (hr : t.resets = s.resets) : SameCells s t := by
  intro addr
  simp only [State.byteAt, hm, hr]

theorem maskEval_matrix (s : State) : (maskEval s).mem = s.mem ∧ (maskEval s).resets = s.resets := by
  obtain ⟨score, pen, h⟩ := scoreAll_frame s
  rw [maskEval, h]
  exact ⟨rfl, rfl⟩

/-- R41: no effect but that of `MASK_APPLY` touches the matrix. -/
theorem effectOf_matrix {i : Instr} (h : ∀ m, i ≠ .maskApply m) (s : State) :
    (effectOf i s).mem = s.mem ∧ (effectOf i s).resets = s.resets := by
  cases i with
  | maskApply m => exact absurd rfl (h m)
  | maskEval => exact maskEval_matrix s
  | nop | setVersion | gfMul | gfExp | rsSetup | rsClear | rsFeed | penScore | bchFormat | bchVersion =>
    exact ⟨rfl, rfl⟩

/-- A word in flight leaves the matrix, or is a `MASK_APPLY` with a version set, whose flips it leaves (R40, R133). -/
theorem execute_matrix {w : Word} {s t : State} (h : execute w s = .next t) :
    (t.mem = s.mem ∧ t.resets = s.resets) ∨
      ∃ m, decode w = .instr (.maskApply m) ∧ s.version ≠ 0#8 ∧ t.mem = (maskApply m s).mem ∧ t.resets = s.resets := by
  obtain ⟨i, hd, hi⟩ | ⟨-, rfl⟩ | ⟨-, rfl⟩ := execute_cases h
  · obtain ⟨hc, rfl⟩ | ⟨-, rfl⟩ := exec_cases hi
    · by_cases hm : ∃ m, i = .maskApply m
      · obtain ⟨m, rfl⟩ := hm
        exact .inr ⟨m, hd, version_ne_of_needsVersion hc, rfl, rfl⟩
      · exact .inl (effectOf_matrix (not_exists.mp hm) s)
    · exact .inl ⟨rfl, rfl⟩
  · exact .inl ⟨rfl, rfl⟩
  · exact .inl ⟨rfl, rfl⟩

theorem byteAt_writeCell_other {addr r c : Nat} (h : addr ≠ cellAddr r c) (v : Word) (s : State) :
    (writeCell r c v s).byteAt addr = s.byteAt addr := by
  simp only [State.byteAt, writeCell_mem, writeCell_resets, read_write_other _ h]

@[simp] theorem cellAt_writeCell_same (r c : Nat) (v : Word) (s : State) :
    (writeCell r c v s).cellAt r c = cellOfWord v := by
  simp [State.cellAt, State.byteAt]

theorem busRead_matrix (a : BusAddr) (s : State) :
    (busRead a s).1.mem = s.mem ∧ (busRead a s).1.resets = s.resets := by
  obtain ⟨-, he⟩ | ⟨t, -, ⟨-, -, he⟩ | ⟨-, he⟩⟩ := busRead_cases a s <;> rw [he] <;> exact ⟨rfl, rfl⟩

theorem storeData_matrix (t : Nat) (r : Response) (s : State) :
    (storeData t r s).mem = s.mem ∧ (storeData t r s).resets = s.resets := by
  cases r <;> exact ⟨rfl, rfl⟩

theorem writeCtrl_matrix (v : Word) (s : State) :
    ((writeCtrl v s).mem = s.mem ∧ (writeCtrl v s).resets = s.resets) ∨ (writeCtrl v s).resets = s.resets + 1 := by
  unfold writeCtrl
  split
  · exact .inr rfl
  · exact .inl ⟨rfl, rfl⟩

/-- A bus write leaves the matrix, resets the block, or is an accepted write to a cell while idle (R60, R221). -/
theorem busWrite_matrix (a : BusAddr) (strobes : BitVec 4) (v : Word) (s : State) :
    ((busWrite a strobes v s).1.mem = s.mem ∧ (busWrite a strobes v s).1.resets = s.resets) ∨
      (busWrite a strobes v s).1.resets = s.resets + 1 ∨
      strobes = 0xF#4 ∧ ∃ r c, decodeAddr s.params a = some (.cell r c) ∧ s.inflight = none
        ∧ (busWrite a strobes v s).1 = writeCell r c v s := by
  obtain he | ⟨t, ht, hst, hw, hb, he⟩ := busWrite_cases a strobes v s <;> rw [he]
  · exact .inl ⟨rfl, rfl⟩
  obtain rfl | rfl | rfl | ⟨r, c, rfl⟩ := writable_cases hw
  · exact (writeCtrl_matrix v s).imp_right .inl
  · exact .inl ⟨rfl, rfl⟩
  · exact .inl ⟨rfl, rfl⟩
  · refine .inr (.inr ⟨hst, r, c, ht, ?_, rfl⟩)
    cases hi : s.inflight with
    | none => rfl
    | some w => simp [State.busy, hi] at hb

/-- R40: a Host step leaves the matrix, resets the block, or writes one cell while nothing is in flight. -/
theorem hostStep_matrix (s : State) :
    SameCells s (hostStep s) ∨ (hostStep s).resets = s.resets + 1 ∨
      ∃ (a : BusAddr) (v : Word) (r c : Nat), s.hostProg[s.busPos]? = some (.write a 0xF#4 v)
        ∧ decodeAddr s.params a = some (.cell r c) ∧ s.inflight = none
        ∧ ∀ addr, addr ≠ cellAddr r c → (hostStep s).byteAt addr = s.byteAt addr := by
  obtain he | ⟨a, strobes, v, hop, he⟩ | ⟨a, t, -, he⟩ := hostStep_cases s
  · exact .inl (by rw [he]; exact fun _ => rfl)
  · rw [he]
    obtain ⟨hm, hr⟩ | hr | ⟨rfl, r, c, ha, hi, hb⟩ := busWrite_matrix a strobes v s
    · exact .inl (sameCells_of_mem_eq hm hr)
    · exact .inr (.inl hr)
    · refine .inr (.inr ⟨a, v, r, c, hop, ha, hi, fun addr hne => ?_⟩)
      rw [← byteAt_writeCell_other hne v s, ← hb]
      rfl
  · obtain ⟨hm, hr⟩ := storeData_matrix t (busRead a s).2 (afterBus s.busPos (busRead a s))
    obtain ⟨hm', hr'⟩ := busRead_matrix a s
    exact .inl (sameCells_of_mem_eq (by rw [he, hm]; exact hm') (by rw [he, hr]; exact hr'))

/-- Settles O42: the step's agent decides which of the causes it is. -/
theorem matrixChangesOnlyByWriteApplyOrReset : Obligations.MatrixChangesOnlyByWriteApplyOrReset := by
  intro s t h
  obtain ⟨hn, rfl⟩ | ⟨-, -, rfl⟩ | ⟨hn, w, hw, he⟩ | ⟨-, rfl⟩ := step_cases h
  · obtain hs | hr | ⟨a, v, r, c, hop, ha, hi, hb⟩ := hostStep_matrix (popMove s)
    · exact .inl hs
    · exact .inr (.inl hr)
    · exact .inr (.inr (.inl ⟨hn, a, v, r, c, by simpa using hop, ha, hi, hb⟩))
  · exact .inl fun _ => rfl
  · obtain ⟨hm, hr⟩ | ⟨m, hd, hv, -⟩ := execute_matrix he
    · exact .inl (sameCells_of_mem_eq hm hr)
    · exact .inr (.inr (.inr ⟨hn, w, m, hw, hd, hv⟩))
  · exact .inr (.inl rfl)

/-! ## Function cells -/

/-- R133: `MASK_APPLY` leaves every function cell of the matrix as it is. -/
theorem cellAt_maskApply_function (m : MaskId) {s : State} {r c : Nat} (h : (s.cellAt r c).func = true) :
    (maskApply m s).cellAt r c = s.cellAt r c := by
  refine congrArg QrCell.ofByte (byteAt_maskApply_other m s _ fun r' c' _ _ hf _ ha => ?_)
  have hsame : s.cellAt r c = s.cellAt r' c' := by simp only [State.cellAt, ha]
  simp [hsame, hf] at h

/-- One flip changes the FUNC bit at no address: the cell it lists is a data cell and stays one. -/
theorem func_flipInto (m : MaskId) (old : State) (mem : Memory) (rc : Nat × Nat)
    (h : ∀ addr, (QrCell.ofByte ({ old with mem := mem }.byteAt addr)).func = (QrCell.ofByte (old.byteAt addr)).func)
    (addr : Nat) :
    (QrCell.ofByte ({ old with mem := flipInto m old mem rc }.byteAt addr)).func
      = (QrCell.ofByte (old.byteAt addr)).func := by
  simp only [flipInto]
  split
  · by_cases ha : addr = cellAddr rc.1 rc.2
    · subst ha
      simp [State.byteAt, State.cellAt]
    · simpa only [State.byteAt, read_write_other _ ha] using h addr
  · exact h addr

theorem func_maskApply (m : MaskId) (s : State) (r c : Nat) :
    ((maskApply m s).cellAt r c).func = (s.cellAt r c).func := by
  have keeps : ∀ (l : List (Nat × Nat)) (mem : Memory),
      (∀ addr, (QrCell.ofByte ({ s with mem := mem }.byteAt addr)).func = (QrCell.ofByte (s.byteAt addr)).func) →
      ∀ addr, (QrCell.ofByte ({ s with mem := l.foldl (flipInto m s) mem }.byteAt addr)).func
        = (QrCell.ofByte (s.byteAt addr)).func := by
    intro l
    induction l with
    | nil => exact fun _ h => h
    | cons rc l ih => exact fun mem h => ih _ (func_flipInto m s mem rc h)
  exact keeps (coords s.side) s.mem (fun _ => rfl) (cellAddr r c)

/-! ## A write to an existing cell -/

/-- R55: the address map gives an existing cell's address back to it. -/
theorem decodeAddr_cellAddr {p : Params} (hp : p.wf = true) {r c : Nat} (hr : r < p.nmax) (hc : c < p.nmax) :
    decodeAddr p (BitVec.ofNat 20 (cellAddr r c)) = some (.cell r c) := by
  have hn := nmax_le hp
  have haddr : cellAddr r c = 0x10000 + 4 * (256 * r + c) := rfl
  have hto : (BitVec.ofNat 20 (cellAddr r c)).toNat = cellAddr r c := by
    rw [BitVec.toNat_ofNat, Nat.mod_eq_of_lt (by omega)]
  have hec := p.maxEc.isLt
  simp only [decodeAddr, hto]
  rw [if_neg (by omega), if_neg (by omega), if_neg (by omega), if_neg (by omega), if_neg (by omega), if_neg (by omega),
    if_pos (isCellAddr_cellAddr (by omega) hr hc), rowOfAddr_cellAddr (by omega) (by omega),
    colOfAddr_cellAddr (by omega)]

/-- R60: a write to an existing cell while nothing is in flight is accepted. -/
theorem busWrite_cellAddr {s : State} (hp : s.params.wf = true) {r c : Nat} (hr : r < s.params.nmax)
    (hc : c < s.params.nmax) (hi : s.inflight = none) (v : Word) :
    busWrite (BitVec.ofNat 20 (cellAddr r c)) 0xF#4 v s = (writeCell r c v s, .written) := by
  simp [busWrite, decodeAddr_cellAddr hp hr hc, Target.readOnly, State.busy, hi, writeTarget]

/-- Every cell value is the value of a word. -/
theorem exists_cellOfWord (cell : QrCell) : ∃ v, cellOfWord v = cell := by
  obtain ⟨d, f⟩ := cell
  refine ⟨0#30 ++ BitVec.ofBool f ++ BitVec.ofBool d, ?_⟩
  cases d <;> cases f <;> rfl

/-- Settles O43: `MASK_APPLY` keeps every function cell and FUNC bit, any other word keeps the whole matrix. -/
theorem engineKeepsFunctionCells : Obligations.EngineKeepsFunctionCells := by
  refine ⟨fun w s t hw h => ?_, fun r c cell s hp hr hc hi => ?_⟩
  · have he : execute w s = .next t := by simpa only [engineStep, hw] using h
    obtain ⟨hm, hres⟩ | ⟨m, hd, -, hm, hres⟩ := execute_matrix he
    · have hs := sameCells_of_mem_eq hm hres
      have hcell (r c : Nat) : t.cellAt r c = s.cellAt r c := congrArg QrCell.ofByte (hs _)
      exact ⟨fun r c => ⟨by rw [hcell], fun _ => hcell r c⟩, fun _ => ⟨hm, hs⟩⟩
    · have hcell (r c : Nat) : t.cellAt r c = (maskApply m s).cellAt r c :=
        congrArg QrCell.ofByte (sameCells_of_mem_eq (s := maskApply m s) hm hres _)
      exact ⟨fun r c => ⟨by rw [hcell, func_maskApply], fun hf => by rw [hcell, cellAt_maskApply_function m hf]⟩,
        fun hne => absurd hd (hne m)⟩
  · obtain ⟨v, rfl⟩ := exists_cellOfWord cell
    exact ⟨v, by rw [busWrite_cellAddr hp hr hc hi, cellAt_writeCell_same]⟩

end Sys2Proof.Machine
end

section
/-! PROOFS. What the registers and cells read as (10_state.md R22 to R37): the fields of a word that is written as an
append, and the words made of two bits. -/

namespace Sys2Proof.Machine

open BitVec (extractLsb'_append_eq_right extractLsb'_eq_self)

/-! ## The fields of an append -/

/-- A field of the upper part of an append lies above the whole lower part. -/
theorem field_above {a b n k : Nat} {x : BitVec a} {y : BitVec b} {f : BitVec n} (h : x.extractLsb' k n = f) :
    (x ++ y).extractLsb' (k + b) n = f := by
  rw [BitVec.extractLsb'_append_eq_of_le (Nat.le_add_left b k), Nat.add_sub_cancel, h]

/-- The fields of PARAMS and CFG (R23, R29). -/
theorem threeBytes_fields (x y z : Byte) :
    (0#8 ++ x ++ y ++ z).extractLsb' 0 8 = z ∧ (0#8 ++ x ++ y ++ z).extractLsb' 8 8 = y
      ∧ (0#8 ++ x ++ y ++ z).extractLsb' 16 8 = x ∧ (0#8 ++ x ++ y ++ z).extractLsb' 24 8 = 0#8 :=
  ⟨extractLsb'_append_eq_right, field_above extractLsb'_append_eq_right,
    field_above (field_above extractLsb'_append_eq_right),
    field_above (field_above (field_above extractLsb'_eq_self))⟩

/-- A register narrower than its word stands in the low bits, the reserved bits above it 0 (R30, R33, R34). -/
theorem setWidth_fields {n : Nat} (x : BitVec n) (k : Nat) :
    (x.setWidth (k + n)).extractLsb' 0 n = x ∧ (x.setWidth (k + n)).extractLsb' n k = 0#k := by
  refine ⟨(BitVec.extractLsb'_setWidth_of_le (by omega)).trans extractLsb'_eq_self, ?_⟩
  apply BitVec.eq_of_getLsbD_eq
  intro i hi
  simp [hi]

/-! ## The fields of each word -/

theorem busy_eq (s : State) : s.busy = decide (s.inflight ≠ none) := by
  cases h : s.inflight <;> simp [State.busy, h]

theorem statusWord_flags (s : State) :
    s.statusWord.extractLsb' 0 1 = BitVec.ofBool s.busy ∧ s.statusWord.extractLsb' 1 1 = BitVec.ofBool s.rsReady
      ∧ s.statusWord.extractLsb' 2 1 = BitVec.ofBool s.verReady ∧ s.statusWord.extractLsb' 3 5 = 0#5 :=
  ⟨extractLsb'_append_eq_right, field_above extractLsb'_append_eq_right,
    field_above (field_above extractLsb'_append_eq_right),
    field_above (field_above (field_above extractLsb'_append_eq_right))⟩

theorem statusWord_record (s : State) :
    s.statusWord.extractLsb' 8 4 = s.err.bits ∧ s.statusWord.extractLsb' 12 4 = 0#4
      ∧ s.statusWord.extractLsb' 16 8 = s.lastOp ∧ s.statusWord.extractLsb' 24 8 = 0#8 := by
  -- below the record stand the reserved bits 7:3 and the three flags
  have above {n k : Nat} {f : BitVec n} (h : (0#8 ++ s.lastOp ++ 0#4 ++ s.err.bits).extractLsb' k n = f) :
      s.statusWord.extractLsb' (k + 5 + 1 + 1 + 1) n = f := field_above (field_above (field_above (field_above h)))
  exact ⟨above extractLsb'_append_eq_right, above (field_above extractLsb'_append_eq_right),
    above (field_above (field_above extractLsb'_append_eq_right)),
    above (field_above (field_above (field_above extractLsb'_eq_self)))⟩

theorem selWord_fields (s : State) :
    s.selWord.extractLsb' 0 3 = s.selMask ∧ s.selWord.extractLsb' 3 5 = 0#5 ∧ s.selWord.getLsbD 8 = s.selValid
      ∧ s.selWord.extractLsb' 9 23 = 0#23 := by
  refine ⟨extractLsb'_append_eq_right, field_above extractLsb'_append_eq_right, ?_,
    field_above (field_above (field_above extractLsb'_eq_self))⟩
  have h : s.selWord.extractLsb' 8 1 = BitVec.ofBool s.selValid := field_above (field_above extractLsb'_append_eq_right)
  simpa using congrArg (BitVec.getLsbD · 0) h

theorem toNat_ofNat_nmax {p : Params} (h : p.wf = true) : (BitVec.ofNat 8 p.nmax).toNat = p.nmax := by
  have := nmax_le h
  rw [BitVec.toNat_ofNat, Nat.mod_eq_of_lt (by omega)]

theorem State.Inv.toNat_ofNat_side {s : State} (h : s.Inv) : (BitVec.ofNat 8 s.side).toNat = s.side := by
  have h1 := side_le_nmax h.version_le
  have h2 := Machine.nmax_le h.params_wf
  rw [BitVec.toNat_ofNat, Nat.mod_eq_of_lt (by omega)]

/-! ## Words of two bits: CTRL, IRQ_STAT and the cells -/

/-- The two bits, and the reserved bits above them 0. -/
theorem twoBits_fields (a b : Bool) :
    (0#30 ++ BitVec.ofBool a ++ BitVec.ofBool b).getLsbD 0 = b
      ∧ (0#30 ++ BitVec.ofBool a ++ BitVec.ofBool b).getLsbD 1 = a
      ∧ (0#30 ++ BitVec.ofBool a ++ BitVec.ofBool b).extractLsb' 2 30 = 0#30 := by
  cases a <;> cases b <;> decide

/-- A mask acts on the two bits, and the reserved bits stay 0. -/
theorem twoBits_and (a b : Bool) (v : Word) :
    (0#30 ++ BitVec.ofBool a ++ BitVec.ofBool b) &&& v
      = 0#30 ++ BitVec.ofBool (a && v.getLsbD 1) ++ BitVec.ofBool (b && v.getLsbD 0) := by
  apply BitVec.eq_of_getLsbD_eq
  intro i hi
  rw [BitVec.getLsbD_and]
  repeat rw [BitVec.getLsbD_append]
  match i with
  | 0 => simp
  | 1 => simp
  | i + 2 => simp

/-! ## The register arrays -/

theorem getElem?_eq_regAt {regs : List Byte} {i : Nat} (h : i < regs.length) : regs[i]? = some (regAt regs i) := by
  simp [regAt, h]

theorem State.Inv.gen_length {s : State} (h : s.Inv) : s.gen.length = s.params.maxEc.toNat := by
  simp [h.gen_eq, genRegs]

/-- Settles O35: every word is an append of its fields. -/
theorem registerWordsHoldTheirFields : Obligations.RegisterWordsHoldTheirFields := by
  intro s h
  obtain ⟨hp0, hp1, hp2, hp3⟩ := threeBytes_fields (BitVec.ofNat 8 s.params.nmax) s.params.maxVersion s.params.maxEc
  obtain ⟨hc0, hc1, hc2, hc3⟩ := threeBytes_fields (BitVec.ofNat 8 s.side) s.version s.ecLen
  obtain ⟨hs0, hs1, hs2, hs3⟩ := statusWord_flags s
  refine ⟨⟨rfl, rfl⟩, ⟨hp0, hp1, ?_, hp3⟩, twoBits_fields s.ieErr s.ieDone,
    ⟨busy_eq s ▸ hs0, hs1, hs2, hs3, statusWord_record s⟩, twoBits_fields s.irqErr s.irqDone, ⟨rfl, rfl, rfl⟩,
    ⟨hc0, hc1, ?_, hc3⟩, setWidth_fields s.feedCnt 16, selWord_fields s, fun _ => rfl, fun _ _ => rfl, fun i hi => ?_,
    fun r c => twoBits_fields (s.cellAt r c).func (s.cellAt r c).dark⟩
  · exact (congrArg BitVec.toNat hp2).trans (toNat_ofNat_nmax h.params_wf)
  · exact (congrArg BitVec.toNat hc2).trans h.toNat_ofNat_side
  · have hgen := setWidth_fields (regAt s.gen i) 24
    have hrem := setWidth_fields (regAt s.rem i) 24
    refine ⟨?_, hgen.2, ?_, hrem.2⟩
    · exact (getElem?_eq_regAt (h.gen_length ▸ hi)).trans (congrArg some hgen.1.symm)
    · exact (getElem?_eq_regAt (h.rem_length ▸ hi)).trans (congrArg some hrem.1.symm)

end Sys2Proof.Machine
end

section
/-! PROOFS. What a reset leaves, and the writes to CTRL and IRQ_STAT (10_state.md R24, R26, R46). -/

namespace Sys2Proof.Machine

/-! ## Reset -/

@[simp] theorem scoreAt_replicate (x : Word) (m : MaskId) : scoreAt (Vector.replicate 8 x) m = x := by
  simp [scoreAt]

@[simp] theorem penAt_replicate (x : Word) (m : MaskId) (k : BitVec 2) :
    penAt (Vector.replicate 8 (Vector.replicate 4 x)) m k = x := by
  simp [penAt]

theorem resetValues_resetBlock (s : State) : ResetValues (resetBlock s) := by
  simp [ResetValues, State.written]

/-- After power-on the registers are what a reset leaves, so a further reset says what they are. -/
theorem resetValues_reset : ResetValues State.reset := resetValues_resetBlock State.reset

/-- STATUS and CTRL read their own registers only, so after any reset they read as after power-on. -/
theorem statusWord_resetBlock (s : State) : (resetBlock s).statusWord = 0#32 :=
  calc (resetBlock s).statusWord = State.reset.statusWord := rfl
    _ = 0#32 := rfl

theorem ctrlWord_resetBlock (s : State) : (resetBlock s).ctrlWord = 0#32 :=
  calc (resetBlock s).ctrlWord = State.reset.ctrlWord := rfl
    _ = 0#32 := rfl

/-- Settles O27: every register word is a function of registers that the reset has set. -/
theorem resetLeavesResetValues : Obligations.ResetLeavesResetValues := by
  refine ⟨resetValues_reset, rfl, rfl, fun s =>
    ⟨resetValues_resetBlock s, rfl, statusWord_resetBlock s, rfl, rfl, fun h => ?_⟩⟩
  simp only [step, h, makeMove]

/-! ## CTRL and IRQ_STAT on the bus, busy or not -/

theorem busRead_ctrl (s : State) : busRead 0x00008#20 s = (s, .data s.ctrlWord) := by
  simp [busRead, decodeAddr, fixedTargets, Target.hiddenWhileBusy, State.readTarget]

theorem busRead_irqStat (s : State) : busRead 0x00010#20 s = (s, .data s.irqStatWord) := by
  simp [busRead, decodeAddr, fixedTargets, Target.hiddenWhileBusy, State.readTarget]

theorem busWrite_ctrl (v : Word) (s : State) : busWrite 0x00008#20 0xF#4 v s = (writeCtrl v s, .written) := by
  simp [busWrite, decodeAddr, fixedTargets, Target.readOnly, Target.writableWhileBusy, writeTarget]

theorem busWrite_irqStat (v : Word) (s : State) :
    busWrite 0x00010#20 0xF#4 v s = (writeIrqStat v s, .written) := by
  simp [busWrite, decodeAddr, fixedTargets, Target.readOnly, Target.writableWhileBusy, writeTarget]

theorem writeCtrl_enables {v : Word} (h : v.getLsbD 31 = false) (s : State) :
    writeCtrl v s = { s with ieDone := v.getLsbD 0, ieErr := v.getLsbD 1 } := by
  simp only [writeCtrl, h, Bool.false_eq_true, if_false]

theorem writeCtrl_reset {v : Word} (h : v.getLsbD 31 = true) (s : State) : writeCtrl v s = resetBlock s := by
  simp only [writeCtrl, h, if_true]

/-- The two low bits of a word. -/
theorem and_three (v : Word) : v &&& 0x3#32 = 0#30 ++ BitVec.ofBool (v.getLsbD 1) ++ BitVec.ofBool (v.getLsbD 0) := by
  rw [BitVec.and_comm]
  simpa using twoBits_and true true v

/-- Settles O29: CTRL is a word of two bits, and a write sets them or resets the block. -/
theorem ctrlWriteSetsTheEnables : Obligations.CtrlWriteSetsTheEnables := by
  refine ⟨fun s => ⟨busRead_ctrl s, ?_⟩, fun s v => ⟨fun h => ?_, fun h => ?_⟩⟩
  · simp [State.ctrlWord, twoBits_and]
  · refine ⟨_, busWrite_ctrl v s, ?_⟩
    rw [writeCtrl_enables h]
    exact ⟨rfl, rfl, (and_three v).symm, rfl⟩
  · exact ⟨_, busWrite_ctrl v s, writeCtrl_reset h s, by rw [writeCtrl_reset h, ctrlWord_resetBlock]⟩

/-- Settles O30: IRQ_STAT is a word of two bits, and a write masks them with the complement of the word written. -/
theorem irqStatClearsBitsWrittenOne : Obligations.IrqStatClearsBitsWrittenOne := by
  refine ⟨fun s => ⟨busRead_irqStat s, twoBits_fields s.irqErr s.irqDone⟩, fun s v => ?_⟩
  have hword : (writeIrqStat v s).irqStatWord = s.irqStatWord &&& ~~~v := by
    simp [State.irqStatWord, twoBits_and]
  exact ⟨_, busWrite_irqStat v s, rfl, rfl, hword ▸ busRead_irqStat _, rfl⟩

end Sys2Proof.Machine
end

section
/-! PROOFS. The register interface (20_memory.md): the address map against the addresses of R55 and R56, what a read
leaves and answers (R59), a cell write read back (R60, R61), and the block's window in the system (R50). -/

namespace Sys2Proof.Machine

/-! ## The address map -/

theorem addr_fixedTargets : ∀ i : Fin 12, fixedTargets[i].addr = 4 * i := by decide

theorem present_fixedTargets (p : Params) : ∀ t ∈ fixedTargets, t.present p = true := by
  simp [fixedTargets, Target.present]

theorem isCellAddr_iff {nmax addr : Nat} :
    isCellAddr nmax addr = true ↔ addr % 4 = 0 ∧ 0x10000 ≤ addr ∧ addr ≤ 0x4FFFC ∧ rowOfAddr addr < nmax
      ∧ colOfAddr addr < nmax := by
  simp [isCellAddr, and_assoc]

theorem maxEc_le {p : Params} (h : p.wf = true) : p.maxEc.toNat ≤ 64 := by
  simp only [Params.wf, Bool.and_eq_true, decide_eq_true_eq] at h
  omega

/-- No register or cell that exists lies outside the block's window. -/
theorem addr_lt_of_present {p : Params} (hp : p.wf = true) {t : Target} (h : t.present p = true) : t.addr < 2 ^ 20 := by
  have hec := maxEc_le hp
  have hn := nmax_le hp
  cases t with
  | score | pen =>
    simp only [Target.addr]
    omega
  | gen i | rem i =>
    simp only [Target.present, decide_eq_true_eq] at h
    simp only [Target.addr]
    omega
  | cell r c =>
    simp only [Target.present, Bool.and_eq_true, decide_eq_true_eq] at h
    simp only [Target.addr, cellAddr]
    omega
  | _ => decide

/-- R55: the address of a register or cell that exists selects it. -/
theorem decodeAddr_of_present {p : Params} (hp : p.wf = true) {t : Target} (h : t.present p = true) {a : BusAddr}
    (ha : t.addr = a.toNat) : decodeAddr p a = some t := by
  have hofNat : BitVec.ofNat 20 t.addr = a := by rw [ha, BitVec.ofNat_toNat, BitVec.setWidth_eq]
  have hec := maxEc_le hp
  cases t with
  | score m =>
    simp only [Target.addr] at ha
    have hm : (a.toNat - 0x40) / 4 = m.toNat := by omega
    simp only [decodeAddr]
    rw [if_neg (by omega), if_neg (by omega), if_pos (by omega), hm, BitVec.ofNat_toNat, BitVec.setWidth_eq]
  | pen m k =>
    simp only [Target.addr] at ha
    have hm : (a.toNat - 0x60) / 16 = m.toNat := by omega
    have hk : (a.toNat - 0x60) / 4 % 4 = k.toNat := by omega
    simp only [decodeAddr]
    rw [if_neg (by omega), if_neg (by omega), if_neg (by omega), if_pos (by omega), hm, hk, BitVec.ofNat_toNat,
      BitVec.setWidth_eq, BitVec.ofNat_toNat, BitVec.setWidth_eq]
  | gen i =>
    simp only [Target.addr] at ha
    have hi : i < p.maxEc.toNat := of_decide_eq_true h
    have hget : (a.toNat - 0x100) / 4 = i := by omega
    simp only [decodeAddr]
    rw [if_neg (by omega), if_neg (by omega), if_neg (by omega), if_neg (by omega), if_pos (by omega), hget]
  | rem j =>
    simp only [Target.addr] at ha
    have hj : j < p.maxEc.toNat := of_decide_eq_true h
    have hget : (a.toNat - 0x200) / 4 = j := by omega
    simp only [decodeAddr]
    rw [if_neg (by omega), if_neg (by omega), if_neg (by omega), if_neg (by omega), if_neg (by omega),
      if_pos (by omega), hget]
  | cell r c =>
    simp only [Target.present, Bool.and_eq_true, decide_eq_true_eq] at h
    exact hofNat ▸ decodeAddr_cellAddr hp h.1 h.2
  | _ => exact hofNat ▸ rfl

/-- R55: a mapped address selects a register or cell that exists, and is its address. -/
theorem present_of_decodeAddr {p : Params} {a : BusAddr} {t : Target} (h : decodeAddr p a = some t) :
    t.present p = true ∧ t.addr = a.toNat := by
  simp only [decodeAddr] at h
  split at h
  · cases h
  -- then block by block, in the order of R55: control and status, SCORE, PEN, GEN, REM, cells
  split at h
  · obtain ⟨hi, rfl⟩ := List.getElem?_eq_some_iff.mp h
    have haddr := addr_fixedTargets ⟨a.toNat / 4, hi⟩
    exact ⟨present_fixedTargets p _ (List.getElem_mem hi), haddr.trans (by simp only; omega)⟩
  split at h
  · cases h
    exact ⟨rfl, by simp only [Target.addr, BitVec.toNat_ofNat]; omega⟩
  split at h
  · cases h
    exact ⟨rfl, by simp only [Target.addr, BitVec.toNat_ofNat]; omega⟩
  split at h
  · cases h
    exact ⟨decide_eq_true (by omega), by simp only [Target.addr]; omega⟩
  split at h
  · cases h
    exact ⟨decide_eq_true (by omega), by simp only [Target.addr]; omega⟩
  split at h
  · rename_i hcell
    cases h
    obtain ⟨-, -, -, hr, hc⟩ := isCellAddr_iff.mp hcell
    exact ⟨by simp [Target.present, hr, hc], cellAddr_of_isCellAddr hcell⟩
  · cases h

/-- R56: above the registers only the matrix window is mapped. -/
theorem decodeAddr_above_registers (p : Params) {a : BusAddr} (h4 : a.toNat % 4 = 0) (hlo : 0x10000 ≤ a.toNat) :
    decodeAddr p a =
      if isCellAddr p.nmax a.toNat = true then some (.cell (rowOfAddr a.toNat) (colOfAddr a.toNat)) else none := by
  have hec := p.maxEc.isLt
  simp only [decodeAddr]
  rw [if_neg (by omega), if_neg (by omega), if_neg (by omega), if_neg (by omega), if_neg (by omega), if_neg (by omega)]

/-- Settles O34: the map inverts the addresses of the registers and cells that exist, and finds nothing else. -/
theorem addressMapIsExact : Obligations.AddressMapIsExact := by
  intro p hp
  refine ⟨fun t h => ?_, fun a t h => present_of_decodeAddr h, fun a h4 hlo hhi => ?_⟩
  · have hlt := addr_lt_of_present hp h
    exact ⟨hlt, decodeAddr_of_present hp h (by rw [BitVec.toNat_ofNat, Nat.mod_eq_of_lt hlt])⟩
  · rw [decodeAddr_above_registers p h4 hlo]
    simp only [isCellAddr_iff, h4, hlo, hhi, true_and, rowOfAddr, colOfAddr]

/-! ## Reads -/

/-- R59: a mapped address that is not hidden reads its register or cell, and the read leaves the state. -/
theorem busRead_of_not_hidden {a : BusAddr} {s : State} {t : Target} (ht : decodeAddr s.params a = some t)
    (hs : ¬ (s.busy = true ∧ t.hiddenWhileBusy = true)) : busRead a s = (s, .data (s.readTarget t)) := by
  obtain ⟨hnone, -⟩ | ⟨t', ht', ⟨hb, hh, -⟩ | ⟨-, he⟩⟩ := busRead_cases a s
  · simp [ht] at hnone
  · cases ht.symm.trans ht'
    exact absurd ⟨hb, hh⟩ hs
  · cases ht.symm.trans ht'
    exact he

/-- R59: a read may count one more free answer, and changes nothing else. -/
theorem busRead_state (a : BusAddr) (s : State) : (busRead a s).1 = { s with draws := (busRead a s).1.draws } := by
  obtain ⟨-, he⟩ | ⟨t, -, ⟨-, -, he⟩ | ⟨-, he⟩⟩ := busRead_cases a s <;> rw [he]

theorem busRead_state_of_idle {s : State} (h : s.busy = false) (a : BusAddr) : (busRead a s).1 = s := by
  obtain ⟨-, he⟩ | ⟨t, -, ⟨hb, -, -⟩ | ⟨-, he⟩⟩ := busRead_cases a s
  · rw [he]
  · simp [h] at hb
  · rw [he]

theorem busRead_cmd (s : State) : busRead 0x00014#20 s = (s, .data 0#32) :=
  busRead_of_not_hidden (t := .cmd) rfl (by simp [Target.hiddenWhileBusy])

/-- Settles O33: a read leaves the state up to the count of free answers, and an idle block gives none. -/
theorem readsHaveNoSideEffect : Obligations.ReadsHaveNoSideEffect := fun a s =>
  ⟨busRead_state a s, fun hb => by rw [busRead_state_of_idle hb], busRead_cmd s,
    fun _ ht hb => busRead_of_not_hidden ht (by simp [hb])⟩

/-! ## A cell write read back -/

theorem cellWord_writeCell_same (r c : Nat) (v : Word) (s : State) :
    (writeCell r c v s).cellWord r c = v &&& 0x3#32 := by
  rw [State.cellWord, cellAt_writeCell_same, and_three]
  rfl

/-- R61: an existing cell is read while nothing is in flight. -/
theorem busRead_cellAddr {s : State} (hp : s.params.wf = true) {r c : Nat} (hr : r < s.params.nmax)
    (hc : c < s.params.nmax) (hi : s.inflight = none) :
    busRead (BitVec.ofNat 20 (cellAddr r c)) s = (s, .data (s.cellWord r c)) :=
  busRead_of_not_hidden (decodeAddr_cellAddr hp hr hc) (by simp [State.busy, hi])

/-- Settles O39: the accepted write is `writeCell`, which keeps the parameters and leaves the block idle, so the cell
can be read back. -/
theorem cellWriteReadsBack : Obligations.CellWriteReadsBack := by
  intro r c v s hp hr hc hi
  have hcell := cellAt_writeCell_same r c v s
  refine ⟨writeCell r c v s, busWrite_cellAddr hp hr hc hi v, ?_, congrArg QrCell.dark hcell,
    congrArg QrCell.func hcell, by simp [State.written], fun _ hne => byteAt_writeCell_other hne v s, rfl⟩
  rw [busRead_cellAddr (s := writeCell r c v s) hp hr hc hi, cellWord_writeCell_same]

/-! ## The window in the system -/

theorem pBase_aligned : Config.pBase % 0x100000 = 0 := Nat.mul_mod_right _ _

/-- R50: a system address has a given offset exactly when it lies that far above `P_BASE`. -/
theorem offsetOfSystem_eq_some {sys : Nat} {a : BusAddr} :
    offsetOfSystem sys = some a ↔ sys = Config.pBase + a.toNat := by
  have ha := a.isLt
  unfold offsetOfSystem
  split
  · rw [Option.some_inj, ← BitVec.toNat_inj, BitVec.toNat_ofNat]
    omega
  · simp only [reduceCtorEq, false_iff]
    omega

theorem offsetOfSystem_eq_none {sys : Nat} :
    offsetOfSystem sys = none ↔ sys < Config.pBase ∨ Config.pBase + 0x100000 ≤ sys := by
  unfold offsetOfSystem
  split
  · simp only [reduceCtorEq, false_iff]
    omega
  · simp only [true_iff]
    omega

/-- Settles O40: `P_BASE` is 1 MiB-aligned, so the distance from it is the low 20 bits of the address. -/
theorem windowSelectsOffsets : Obligations.WindowSelectsOffsets := by
  refine ⟨pBase_aligned, fun a => offsetOfSystem_eq_some.mpr rfl, fun sys a h => ?_, fun _ => offsetOfSystem_eq_none⟩
  have hsys := offsetOfSystem_eq_some.mp h
  have hbase := pBase_aligned
  have ha := a.isLt
  exact ⟨hsys, by omega⟩

end Sys2Proof.Machine
end

section
/-! PROOFS. The encoding both ways (30_encoding.md R70 to R77): the decoder reads a command from its own word, and from
no other; then the words it rejects (R75). -/

namespace Sys2Proof.Machine

/-! ## From a command to its word and back -/

theorem encodeFields (i : Instr) : Laws.EncodeFields.Statement i := by
  cases i with
  | nop => exact Laws.EncodeFields.nop
  | setVersion v => exact Laws.EncodeFields.setVersion v
  | gfMul a b => exact Laws.EncodeFields.gfMul a b
  | gfExp e => exact Laws.EncodeFields.gfExp e
  | rsSetup n => exact Laws.EncodeFields.rsSetup n
  | rsClear => exact Laws.EncodeFields.rsClear
  | rsFeed d => exact Laws.EncodeFields.rsFeed d
  | penScore m => exact Laws.EncodeFields.penScore m
  | maskEval => exact Laws.EncodeFields.maskEval
  | maskApply m => exact Laws.EncodeFields.maskApply m
  | bchFormat e m => exact Laws.EncodeFields.bchFormat e m
  | bchVersion v => exact Laws.EncodeFields.bchVersion v

/-- The row of a command admits the arguments that its word carries, and gives the command back. A mask id, a level
code and a BCH version are bounded by the width of their operands. -/
theorem decodeArgs_encode (i : Instr) : decodeArgs i.opcode (argA (encode i)) (argB (encode i)) = some i := by
  cases i with
  | penScore m | maskApply m =>
    have hm : m.toNat % 256 ≤ 7 := by omega
    simp [decodeArgs, encode, Instr.opcode, hm]
  | bchFormat e m =>
    have he : e.toNat % 256 ≤ 3 := by omega
    have hm : m.toNat % 256 ≤ 7 := by omega
    simp [decodeArgs, encode, Instr.opcode, he, hm]
  | bchVersion v =>
    have hv : v.toNat % 256 ≤ 63 := by omega
    simp [decodeArgs, encode, Instr.opcode, hv]
  | nop | setVersion | gfMul | gfExp | rsSetup | rsClear | rsFeed | maskEval =>
    simp [decodeArgs, encode, Instr.opcode]

/-- Settles O18: the word of a command passes the tests on OP and RSV, and its row gives the command back. -/
theorem decodeInvertsEncode : Obligations.DecodeInvertsEncode := by
  intro i
  obtain ⟨hop, hlisted, hrsv⟩ := encodeFields i
  simp only [decode, hop, hlisted, hrsv, decodeArgs_encode, not_true_eq_false, ne_eq, if_false]

/-- An argument below the bound of a narrower operand is not cut by it. -/
theorem setWidth_setWidth_of_toNat_lt {n : Nat} {a : Byte} (h : a.toNat < 2 ^ n) : (a.setWidth n).setWidth 8 = a := by
  apply BitVec.eq_of_toNat_eq
  rw [BitVec.toNat_setWidth, BitVec.toNat_setWidth, Nat.mod_eq_of_lt h, Nat.mod_eq_of_lt a.isLt]

/-- A row that gives a command has admitted only what the command keeps: a field is an operand or 0. -/
theorem encode_of_decodeArgs {op a b : Byte} {i : Instr} (hop : op ∈ listedOps) (h : decodeArgs op a b = some i) :
    encode i = commandWord op a b := by
  -- one case for each row, in the order of the opcodes; a field is "0", a whole byte, or a bounded number
  rcases listedOps_cases hop with rfl | rfl | rfl | rfl | rfl | rfl | rfl | rfl | rfl | rfl | rfl | rfl <;>
    simp only [decodeArgs, BitVec.ofNat_eq_ofNat, BitVec.reduceEq, if_true, if_false, Option.ite_none_right_eq_some,
      Option.some.injEq] at h
  · obtain ⟨⟨rfl, rfl⟩, rfl⟩ := h; rfl
  · obtain ⟨rfl, rfl⟩ := h; rfl
  · obtain rfl := h; rfl
  · obtain ⟨rfl, rfl⟩ := h; rfl
  · obtain ⟨rfl, rfl⟩ := h; rfl
  · obtain ⟨⟨rfl, rfl⟩, rfl⟩ := h; rfl
  · obtain ⟨rfl, rfl⟩ := h; rfl
  · obtain ⟨⟨ha, rfl⟩, rfl⟩ := h
    rw [encode, setWidth_setWidth_of_toNat_lt (by omega)]; rfl
  · obtain ⟨⟨rfl, rfl⟩, rfl⟩ := h; rfl
  · obtain ⟨⟨ha, rfl⟩, rfl⟩ := h
    rw [encode, setWidth_setWidth_of_toNat_lt (by omega)]; rfl
  · obtain ⟨⟨ha, hb⟩, rfl⟩ := h
    rw [encode, setWidth_setWidth_of_toNat_lt (by omega), setWidth_setWidth_of_toNat_lt (by omega)]; rfl
  · obtain ⟨⟨ha, rfl⟩, rfl⟩ := h
    rw [encode, setWidth_setWidth_of_toNat_lt (by omega)]; rfl

/-- Settles O19: the fields of the word are those of the command's word, and with RSV = 0 the fields are the word. -/
theorem encodeInvertsDecode : Obligations.EncodeInvertsDecode := by
  intro w i h
  obtain ⟨hop, hrsv, hargs⟩ := decode_instr h
  exact (encode_of_decodeArgs hop hargs).trans (commandWord_fields hrsv)

/-- Settles O17: the decoder is run on eight words. -/
theorem writtenWordsDecode : Obligations.WrittenWordsDecode := by
  unfold Obligations.WrittenWordsDecode
  decide

/-! ## Rejected words -/

/-- R75: the reserved opcodes are the gaps between the listed ones. -/
theorem notMem_listedOps_iff (op : Byte) :
    op ∉ listedOps ↔ (0x02 ≤ op.toNat ∧ op.toNat ≤ 0x0F) ∨ (0x12 ≤ op.toNat ∧ op.toNat ≤ 0x1F)
      ∨ (0x23 ≤ op.toNat ∧ op.toNat ≤ 0x2F) ∨ (0x33 ≤ op.toNat ∧ op.toNat ≤ 0x3F) ∨ 0x42 ≤ op.toNat := by
  simp only [listedOps, List.mem_cons, List.not_mem_nil, or_false, not_or, ← BitVec.toNat_inj, BitVec.toNat_ofNat]
  omega

/-- R160: an idle block accepts any word written to CMD. -/
theorem busWrite_cmd_of_idle {s : State} (hi : s.inflight = none) (w : Word) :
    busWrite 0x00014#20 0xF#4 w s = (issue w s, .written) := by
  simp [busWrite, decodeAddr, fixedTargets, Target.readOnly, State.busy, hi, writeTarget]

/-- R164: the completion record is all that `complete` writes. -/
theorem onlyCompleted_complete (code : ResultCode) (op : Byte) (s : State) :
    OnlyCompleted code op s (complete code op s) := by
  simp [OnlyCompleted, Completed, SameControl, SameResults, SameEncoder, SameSelection, SameScores, SameCells,
    SameAgents, State.byteAt]

/-- R164: a word that fails its check completes with that code, whoever rejects it: the decoder or its meaning. -/
theorem execute_of_check_failed {w : Word} {s : State} (h : check w s ≠ .ok) :
    execute w s = .next (complete (check w s) (opField w) s) := by
  cases hd : decode w with
  | instr i =>
    obtain ⟨hcode, hop⟩ := check_of_instr hd s
    rw [hcode] at h ⊢
    simp only [execute, hd, exec_failed h, hop]
  | illegalOp => simp only [execute, hd, check_of_illegalOp hd]
  | badArg => simp only [execute, hd, check_of_badArg hd]

/-- R183: a reserved opcode fails the first test of the check. -/
theorem check_of_reserved {w : Word} (h : opField w ∉ listedOps) (s : State) : check w s = .illegalOp := by
  simp only [check, h, not_false_eq_true, if_true]

/-- R183: with a listed opcode, RSV and the ranges of the arguments come next. -/
theorem check_of_illegal_argument {w : Word} {s : State} (hop : opField w ∈ listedOps)
    (h : rsvField w ≠ 0#8 ∨ argsInRange s.params (opField w) (argA w) (argB w) = false) : check w s = .badArg := by
  simp only [check, hop, not_true_eq_false, if_false]
  by_cases hrsv : rsvField w = 0#8
  · have hargs := h.resolve_left (not_not_intro hrsv)
    simp only [hrsv, hargs, ne_eq, not_true_eq_false, if_false, if_true]
  · simp only [hrsv, ne_eq, not_false_eq_true, if_true]

theorem execute_onlyCompleted {w : Word} {s : State} {code : ResultCode} (hcode : check w s = code) (h : code ≠ .ok) :
    ∃ t, execute w s = .next t ∧ OnlyCompleted code (opField w) s t := by
  subst hcode
  exact ⟨_, execute_of_check_failed h, onlyCompleted_complete ..⟩

/-- Settles O15: CMD accepts every word, and a word that fails its check writes the completion record only. -/
theorem reservedOpcodeIsIllegal : Obligations.ReservedOpcodeIsIllegal :=
  ⟨notMem_listedOps_iff, fun w s =>
    ⟨fun hi => busWrite_cmd_of_idle hi w,
      fun hop => execute_onlyCompleted (check_of_reserved hop s) (by decide),
      fun hop h => execute_onlyCompleted (check_of_illegal_argument hop h) (by decide)⟩⟩

end Sys2Proof.Machine
end

section
/-! PROOFS. The Host's step against its program (30_encoding.md R79, 00_scope.md R15): the transaction that the jumps
lead to, and what a read leaves in the temporaries. -/

namespace Sys2Proof.Machine

/-! ## The temporaries after a read -/

@[simp] theorem temp_storeData_data (t : Nat) (v : Word) (s : State) : (storeData t (.data v) s).temp t = v := by
  simp [storeData, State.temp, assocGet_assocSet_same]

theorem temp_storeData_other {k t : Nat} (h : k ≠ t) (r : Response) (s : State) :
    (storeData t r s).temp k = s.temp k := by
  cases r with
  | data v => simp only [storeData, State.temp, assocGet_assocSet_other h]
  | written | error => rfl

theorem storeData_frame (t : Nat) (r : Response) (s : State) :
    storeData t r s = { s with temps := (storeData t r s).temps } := by
  cases r <;> rfl

theorem afterBus_busRead_temps (pos : Nat) (a : BusAddr) (s : State) :
    (afterBus pos (busRead a s)).temps = s.temps := by
  rw [afterBus, busRead_state]

/-! ## The transaction that the jumps lead to -/

theorem hostStep_write_of_jumps {s : State} {pos : Nat} {a : BusAddr} {strobes : BitVec 4} {v : Word}
    (hj : Jumps s s.hostPc pos) (h : s.hostProg[pos]? = some (.write a strobes v)) :
    hostStep s = afterBus pos (busWrite a strobes v s) := by
  obtain rfl := busPos_of_jumps hj (jumpAt_write h)
  exact hostStep_write h

theorem hostStep_read_of_jumps {s : State} {pos : Nat} {a : BusAddr} {t : Nat} (hj : Jumps s s.hostPc pos)
    (h : s.hostProg[pos]? = some (.read a t)) :
    hostStep s = storeData t (busRead a s).2 (afterBus pos (busRead a s)) := by
  obtain rfl := busPos_of_jumps hj (jumpAt_read h)
  exact hostStep_read h

theorem hostStep_end_of_jumps {s : State} {pos : Nat} (hj : Jumps s s.hostPc pos) (h : s.hostProg[pos]? = none) :
    hostStep s = s := by
  obtain rfl := busPos_of_jumps hj (jumpAt_end h)
  exact hostStep_of_length_le (List.getElem?_eq_none_iff.mp h)

theorem hostStep_bnz {s : State} {t target : Nat} {mask : Word}
    (h : s.hostProg[s.busPos]? = some (.bnz t mask target)) : hostStep s = s := by
  simp only [hostStep, h, hostOp]

theorem hostStep_beq {s : State} {t target : Nat} {v : Word} (h : s.hostProg[s.busPos]? = some (.beq t v target)) :
    hostStep s = s := by
  simp only [hostStep, h, hostOp]

/-- Settles O44: the jumps lead to `busPos`, and the step is what stands there. When they go round for ever, `busPos` is
one of the positions they pass. -/
theorem hostFollowsItsProgram : Obligations.HostFollowsItsProgram := by
  refine fun s => ⟨fun pos a strobes v hj h => ⟨_, _, rfl, hostStep_write_of_jumps hj h⟩, fun pos a t hj h => ?_,
    fun pos hj h => hostStep_end_of_jumps hj h, fun hround => ?_⟩
  · refine ⟨(busRead a s).1, (busRead a s).2, rfl, ?_⟩
    rw [hostStep_read_of_jumps hj h]
    refine ⟨fun x hx => ?_, fun he => ?_, fun k hk => ?_, storeData_frame ..⟩
    · rw [hx, temp_storeData_data]
    · rw [he]
      exact afterBus_busRead_temps pos a s
    · rw [temp_storeData_other hk, State.temp, afterBus_busRead_temps, State.temp]
  · obtain ⟨t, mask, target, h⟩ | ⟨t, v, target, h⟩ := hround _ (jumps_busPos s)
    · exact hostStep_bnz h
    · exact hostStep_beq h

end Sys2Proof.Machine
end

section
/-! PROOFS. The field GF(256) (40_gf_arith.md R90 to R96). The product is linear over GF(2) in each operand, so an
identity between products need only be run on the eight powers of two; and every nonzero element is a power of α, so
the laws of ⊗ are the laws of exponents. -/

namespace Sys2Proof.Machine

/-! ## The product is linear -/

/-- Adding the same term under two conditions is adding it under exactly one of them. -/
theorem ite_xor_ite {w : Nat} (x y : Bool) (p q t : BitVec w) :
    (if x then p ^^^ t else p) ^^^ (if y then q ^^^ t else q) = if x ^^ y then p ^^^ q ^^^ t else p ^^^ q := by
  have hcancel : p ^^^ t ^^^ (q ^^^ t) = p ^^^ q := by
    rw [BitVec.xor_comm q t, BitVec.xor_assoc, ← BitVec.xor_assoc t t q, BitVec.xor_self, BitVec.zero_xor]
  cases x <;> cases y
  · rfl
  · exact (BitVec.xor_assoc p q t).symm
  · show p ^^^ t ^^^ q = p ^^^ q ^^^ t
    ac_rfl
  · exact hcancel

theorem polyProduct_xor_left (a b c : Byte) :
    polyProduct (a ^^^ b) c = polyProduct a c ^^^ polyProduct b c := by
  refine List.foldl_hom₂ _ (· ^^^ ·) _ _ _ 0#15 0#15 fun p q i => ?_
  rw [BitVec.setWidth_xor, BitVec.shiftLeft_xor_distrib]
  split
  · ac_rfl
  · rfl

theorem polyProduct_xor_right (a b c : Byte) :
    polyProduct a (b ^^^ c) = polyProduct a b ^^^ polyProduct a c := by
  refine List.foldl_hom₂ _ (· ^^^ ·) _ _ _ 0#15 0#15 fun p q i => ?_
  rw [BitVec.getLsbD_xor]
  exact ite_xor_ite ..

theorem reduceModulus_xor (p q : BitVec 15) : reduceModulus (p ^^^ q) = reduceModulus p ^^^ reduceModulus q := by
  rw [reduceModulus, reduceModulus, reduceModulus, ← BitVec.setWidth_xor]
  refine congrArg _ (List.foldl_hom₂ _ (· ^^^ ·) _ _ _ p q fun p q i => ?_)
  rw [BitVec.getLsbD_xor]
  exact ite_xor_ite ..

theorem gfmul_xor_left (a b c : Byte) : gfmul (a ^^^ b) c = gfmul a c ^^^ gfmul b c := by
  rw [gfmul, polyProduct_xor_left, reduceModulus_xor]
  rfl

theorem gfmul_xor_right (a b c : Byte) : gfmul a (b ^^^ c) = gfmul a b ^^^ gfmul a c := by
  rw [gfmul, polyProduct_xor_right, reduceModulus_xor]
  rfl

@[simp] theorem gfmul_zero_left (a : Byte) : gfmul 0#8 a = 0#8 := by
  simpa using gfmul_xor_left 0#8 0#8 a

@[simp] theorem gfmul_zero_right (a : Byte) : gfmul a 0#8 = 0#8 := by
  simpa using gfmul_xor_right a 0#8 0#8

/-! ## Identities by linearity -/

theorem or_twoPow_of_getLsbD_false {w n : Nat} {a : BitVec w} (h : a.getLsbD n = false) :
    a ||| BitVec.twoPow w n = a ^^^ BitVec.twoPow w n := by
  apply BitVec.eq_of_getLsbD_eq
  intro i hi
  by_cases hin : n = i
  · subst hin
    simp [h]
  · simp [hin]

/-- The powers of two span the field: what holds of 0 and of them, and of every sum of elements it holds of, holds of
every element. -/
theorem xor_induction {P : Byte → Prop} (zero : P 0#8) (bit : ∀ i : Fin 8, P (BitVec.twoPow 8 i))
    (xor : ∀ a b, P a → P b → P (a ^^^ b)) (a : Byte) : P a := by
  have low : ∀ n ≤ 8, P ((a.setWidth n).setWidth 8) := by
    intro n
    induction n with
    | zero => exact fun _ => BitVec.eq_nil (a.setWidth 0) ▸ zero
    | succ n ih =>
      intro hn
      cases hbit : a.getLsbD n with
      | false =>
        rw [BitVec.setWidth_setWidth_succ_eq_setWidth_setWidth_of_getLsbD_false hbit]
        exact ih (by omega)
      | true =>
        rw [BitVec.setWidth_setWidth_succ_eq_setWidth_setWidth_or_twoPow_of_getLsbD_true hbit,
          or_twoPow_of_getLsbD_false (by simp)]
        exact xor _ _ (ih (by omega)) (bit ⟨n, hn⟩)
  simpa using low 8 le_rfl

@[simp] theorem gfmul_one (a : Byte) : gfmul a 1#8 = a := by
  induction a using xor_induction with
  | zero => rfl
  | bit i => revert i; decide
  | xor a b ha hb => rw [gfmul_xor_left, ha, hb]

/-- Associativity for a last factor α. -/
theorem gfmul_gfmul_alpha (a b : Byte) : gfmul a (gfmul b alpha) = gfmul (gfmul a b) alpha := by
  induction a using xor_induction with
  | zero => simp
  | xor a a' ha ha' => simp only [gfmul_xor_left, ha, ha']
  | bit i =>
    induction b using xor_induction with
    | zero => simp
    | xor b b' hb hb' => simp only [gfmul_xor_left, gfmul_xor_right, hb, hb']
    | bit j => revert i j; decide +kernel

/-! ## The powers of α -/

/-- The law of exponents. -/
theorem alphaPow_add (i j : Nat) : alphaPow (i + j) = gfmul (alphaPow i) (alphaPow j) := by
  induction j with
  | zero => exact (gfmul_one _).symm
  | succ j ih =>
    calc alphaPow (i + (j + 1)) = gfmul (gfmul (alphaPow i) (alphaPow j)) alpha := congrArg (gfmul · alpha) ih
      _ = gfmul (alphaPow i) (alphaPow (j + 1)) := (gfmul_gfmul_alpha _ _).symm

theorem alphaPow_15 : alphaPow 15 = 0x26#8 := by decide +kernel

theorem alphaPow_17 : alphaPow 17 = 0x98#8 := by decide +kernel

theorem alphaPow_34 : alphaPow 34 = 0x4E#8 := by
  rw [alphaPow_add 17 17, alphaPow_17]
  decide

theorem alphaPow_51 : alphaPow 51 = 0x0A#8 := by
  rw [alphaPow_add 34 17, alphaPow_34, alphaPow_17]
  decide

theorem alphaPow_85 : alphaPow 85 = 0xD6#8 := by
  rw [alphaPow_add 51 34, alphaPow_51, alphaPow_34]
  decide

/-- R93: the powers of α come round. -/
theorem alphaPow_255 : alphaPow 255 = 1#8 := by
  rw [alphaPow_add 170 85, alphaPow_add 85 85, alphaPow_85]
  decide +kernel

theorem alphaPow_255_mul (k : Nat) : alphaPow (255 * k) = 1#8 := by
  induction k with
  | zero => rfl
  | succ k ih => rw [Nat.mul_succ, alphaPow_add, ih, alphaPow_255, gfmul_one]

/-- R93: no power of α is 0, since a further power makes it 1. -/
theorem alphaPow_ne_zero (i : Nat) : alphaPow i ≠ 0#8 := by
  intro h
  have hone : gfmul (alphaPow i) (alphaPow (254 * i)) = 1#8 := by
    rw [← alphaPow_add, show i + 254 * i = 255 * i by omega, alphaPow_255_mul]
  rw [h, gfmul_zero_left] at hone
  exact absurd hone (by decide)

/-! ## α has order 255 -/

/-- The step from one power of α to the next. -/
def timesAlpha (a : Byte) : Byte := gfmul a alpha

theorem iterate_timesAlpha (i : Nat) : timesAlpha^[i] 1#8 = alphaPow i := by
  induction i with
  | zero => rfl
  | succ i ih => rw [Function.iterate_succ_apply', ih, timesAlpha, alphaPow]

theorem isPeriodicPt_timesAlpha {n : Nat} : Function.IsPeriodicPt timesAlpha n 1#8 ↔ alphaPow n = 1#8 := by
  rw [Function.IsPeriodicPt, Function.IsFixedPt, iterate_timesAlpha]

/-- A divisor of 255 = 3 · 5 · 17 other than 255 itself leaves out a prime factor. -/
theorem eq_or_dvd_of_mem_divisors_255 : ∀ d ∈ Nat.divisors 255, d = 255 ∨ d ∣ 85 ∨ d ∣ 51 ∨ d ∣ 15 := by decide +kernel

/-- The order of α divides 255, and α^85, α^51 and α^15 are not 1. -/
theorem minimalPeriod_timesAlpha : Function.minimalPeriod timesAlpha 1#8 = 255 := by
  have hdvd : Function.minimalPeriod timesAlpha 1#8 ∣ 255 :=
    (isPeriodicPt_timesAlpha.mpr alphaPow_255).minimalPeriod_dvd
  have hpow {n : Nat} (h : Function.minimalPeriod timesAlpha 1#8 ∣ n) : alphaPow n = 1#8 :=
    isPeriodicPt_timesAlpha.mp (Function.isPeriodicPt_iff_minimalPeriod_dvd.mpr h)
  obtain h | h | h | h := eq_or_dvd_of_mem_divisors_255 _ (Nat.mem_divisors.mpr ⟨hdvd, by decide⟩)
  · exact h
  · exact absurd ((hpow h).symm.trans alphaPow_85) (by decide)
  · exact absurd ((hpow h).symm.trans alphaPow_51) (by decide)
  · exact absurd ((hpow h).symm.trans alphaPow_15) (by decide)

/-- R93: the powers α⁰ … α^254 are distinct. -/
theorem alphaPow_inj {i j : Nat} (hi : i < 255) (hj : j < 255) (h : alphaPow i = alphaPow j) : i = j := by
  rw [← iterate_timesAlpha, ← iterate_timesAlpha] at h
  rw [← minimalPeriod_timesAlpha] at hi hj
  exact Function.iterate_injOn_Iio_minimalPeriod hi hj h

/-- R93: 255 distinct nonzero elements are all there are. -/
theorem exists_alphaPow {a : Byte} (ha : a ≠ 0#8) : ∃ i < 255, alphaPow i = a := by
  have hsurj : Set.SurjOn (fun i => (alphaPow i).toNat) (Finset.range 255) (Finset.Ico 1 256) := by
    refine Finset.surjOn_of_injOn_of_card_le _ (fun i _ => ?_) (fun i hi j hj h => ?_) (by simp)
    · have hne : (alphaPow i).toNat ≠ 0 := fun h => alphaPow_ne_zero i (BitVec.eq_of_toNat_eq h)
      have hlt := (alphaPow i).isLt
      simp only [Finset.coe_Ico, Set.mem_Ico]
      omega
    · exact alphaPow_inj (Finset.mem_range.mp hi) (Finset.mem_range.mp hj) (BitVec.eq_of_toNat_eq h)
  have hne : a.toNat ≠ 0 := fun h => ha (BitVec.eq_of_toNat_eq h)
  obtain ⟨i, hi, h⟩ := hsurj (Finset.mem_coe.mpr (Finset.mem_Ico.mpr ⟨Nat.pos_of_ne_zero hne, a.isLt⟩))
  exact ⟨i, Finset.mem_range.mp hi, BitVec.eq_of_toNat_eq h⟩

/-! ## The field laws, by exponents -/

theorem eq_zero_or_alphaPow (a : Byte) : a = 0#8 ∨ ∃ i, a = alphaPow i := by
  by_cases h : a = 0#8
  · exact .inl h
  · obtain ⟨i, -, hi⟩ := exists_alphaPow h
    exact .inr ⟨i, hi.symm⟩

theorem gfmul_comm (a b : Byte) : gfmul a b = gfmul b a := by
  obtain rfl | ⟨i, rfl⟩ := eq_zero_or_alphaPow a
  · simp
  obtain rfl | ⟨j, rfl⟩ := eq_zero_or_alphaPow b
  · simp
  · rw [← alphaPow_add, ← alphaPow_add, Nat.add_comm]

theorem gfmul_assoc (a b c : Byte) : gfmul (gfmul a b) c = gfmul a (gfmul b c) := by
  obtain rfl | ⟨i, rfl⟩ := eq_zero_or_alphaPow a
  · simp
  obtain rfl | ⟨j, rfl⟩ := eq_zero_or_alphaPow b
  · simp
  obtain rfl | ⟨k, rfl⟩ := eq_zero_or_alphaPow c
  · simp
  · simp only [← alphaPow_add, Nat.add_assoc]

theorem gfmul_alphaPow_inverse {i : Nat} (h : i ≤ 255) : gfmul (alphaPow i) (alphaPow (255 - i)) = 1#8 := by
  rw [← alphaPow_add, Nat.add_sub_cancel' h, alphaPow_255]

/-- α^254 is the inverse of α. -/
theorem alphaPow_254 : alphaPow 254 = 0x8E#8 := by
  have hinv : gfmul alpha 0x8E#8 = 1#8 := by decide
  calc alphaPow 254 = gfmul (alphaPow 254) (gfmul alpha 0x8E#8) := by rw [hinv, gfmul_one]
    _ = gfmul (alphaPow 255) 0x8E#8 := (gfmul_assoc _ _ _).symm
    _ = 0x8E#8 := by rw [alphaPow_255, gfmul_comm, gfmul_one]

/-- Settles O48: the laws of ⊗ are those of exponents, those of ⊕ are those of XOR. -/
theorem gfMultiplicationIsAFieldProduct : Obligations.GfMultiplicationIsAFieldProduct := by
  refine ⟨gfmul_comm, gfmul_assoc, gfmul_xor_right, gfmul_one, BitVec.xor_comm, BitVec.xor_assoc,
    fun a => BitVec.xor_zero, fun a => BitVec.xor_self, fun a ha => ?_⟩
  obtain ⟨i, hi, rfl⟩ := exists_alphaPow ha
  exact ⟨i, hi, rfl, gfmul_alphaPow_inverse hi.le⟩

/-- Settles O49: α has order 255, which is the number of nonzero elements. -/
theorem alphaIsPrimitive : Obligations.AlphaIsPrimitive :=
  ⟨fun _ => rfl, rfl, alphaPow_255, by decide +kernel, alphaPow_254, alphaPow_ne_zero, fun _ _ => alphaPow_inj,
    fun _ => exists_alphaPow⟩

end Sys2Proof.Machine
end

section
/-! PROOFS. What the statements of the commands share: the result codes of the words with a listed opcode
(60_exceptions.md R183, R184), and the commands that write RESULT and RESULT_AUX only (10_state.md R28). -/

namespace Sys2Proof.Machine

/-! ## Result codes -/

/-- The configuration that a listed opcode needs is missing (R183). -/
def unconfiguredFor (op : Byte) (s : State) : Prop :=
  (op = 0x21#8 ∨ op = 0x22#8) ∧ s.ecLen = 0#8 ∨ (op = 0x30#8 ∨ op = 0x31#8 ∨ op = 0x32#8) ∧ s.version = 0#8

/-- R183: the configuration comes last. -/
theorem check_of_legal_argument {w : Word} {s : State} (hop : opField w ∈ listedOps) (hrsv : rsvField w = 0#8)
    (hargs : argsInRange s.params (opField w) (argA w) (argB w) = true) :
    (unconfiguredFor (opField w) s ∧ check w s = .notConfigured) ∨
      (¬ unconfiguredFor (opField w) s ∧ check w s = .ok) := by
  simp only [check, hop, hrsv, hargs, unconfiguredFor, not_true_eq_false, ne_eq, if_false, reduceCtorEq]
  split
  · exact .inl ⟨.inl ‹_›, rfl⟩
  split
  · exact .inl ⟨.inr ‹_›, rfl⟩
  · exact .inr ⟨not_or.mpr ⟨‹_›, ‹_›⟩, rfl⟩

/-- The result codes of a listed opcode, from what its row admits and what it needs. -/
theorem codesOf_of_row {op : Byte} {bad : Word → Prop} {unconfigured : Prop} {s : State} (hop : op ∈ listedOps)
    (hbad : ∀ w, bad w ↔ rsvField w ≠ 0#8 ∨ argsInRange s.params op (argA w) (argB w) = false)
    (hun : unconfigured ↔ unconfiguredFor op s) : CodesOf op bad unconfigured s := by
  rintro w rfl
  rw [hbad, hun]
  by_cases h : rsvField w ≠ 0#8 ∨ argsInRange s.params (opField w) (argA w) (argB w) = false
  · simp [check_of_illegal_argument hop h, h]
  · simp only [not_or, not_not, Bool.not_eq_false] at h
    obtain ⟨hu, hc⟩ | ⟨hu, hc⟩ := check_of_legal_argument hop h.1 h.2 <;> simp [hc, h, hu]

/-! ## The commands that write RESULT and RESULT_AUX -/

/-- R28, R164: a command whose effect is to write the two results completes, and leaves all else. -/
theorem exec_setResult {i : Instr} {s : State} {x y : Word} (hcode : codeOf i s = .ok)
    (heffect : effectOf i s = setResult x y s) :
    ∃ t, exec i s = .next t ∧ Completed .ok i.opcode s t ∧ t.result = x ∧ t.resultAux = y ∧ SameControl s t
      ∧ SameEncoder s t ∧ t.version = s.version ∧ SameSelection s t ∧ SameScores s t ∧ SameCells s t
      ∧ SameAgents s t := by
  refine ⟨_, exec_ok hcode, ?_⟩
  rw [heffect]
  simp [Completed, SameControl, SameEncoder, SameSelection, SameScores, SameCells, SameAgents, State.byteAt]

end Sys2Proof.Machine
end

section
/-! PROOFS. The commands GF_MUL and GF_EXP (40_gf_arith.md R94, R95). -/

namespace Sys2Proof.Machine

/-- Settles O3: the row of GF_MUL admits every A and B, and its effect is to write the product. -/
theorem gfMulWritesTheProduct : Obligations.GfMulWritesTheProduct := by
  refine ⟨fun _ _ => rfl, fun a b => ⟨gfmul_zero_right a, gfmul_zero_left b, gfmul_one a, gfmul_comm a b⟩, by decide,
    fun a b s => ⟨codesOf_of_row (by decide) ?_ ?_, exec_setResult rfl rfl⟩⟩
  · simp [argsInRange]
  · simp [unconfiguredFor]

/-- A power of α is not 0, and a wider word holds it whole. -/
theorem setWidth_alphaPow_ne_zero (i : Nat) : (alphaPow i).setWidth 32 ≠ 0#32 := by
  intro h
  exact alphaPow_ne_zero i (by simpa using congrArg (BitVec.setWidth 8) h)

/-- Settles O4: the row of GF_EXP admits B = 0 only, and its effect is to write the power, which is never 0. -/
theorem gfExpWritesThePower : Obligations.GfExpWritesThePower := by
  refine ⟨fun e => by simp [encode, commandWord, Instr.opcode], fun e s => ⟨codesOf_of_row (by decide) ?_ ?_, ?_⟩⟩
  · simp [argsInRange, or_comm]
  · simp [unconfiguredFor]
  · obtain ⟨t, he, hdone, hres, haux, hframe⟩ := exec_setResult (i := .gfExp e) (s := s) rfl rfl
    refine ⟨t, he, hdone, hres, haux, ?_, ?_, hres ▸ setWidth_alphaPow_ne_zero _, hframe⟩
    · rintro (rfl | rfl) <;> exact hres
    · rintro rfl
      rw [hres]
      decide +kernel

end Sys2Proof.Machine
end

section
/-! PROOFS. The commands RS_SETUP, RS_CLEAR and RS_FEED (41_reed_solomon.md R103 to R106): each writes registers of the
encoder only. -/

namespace Sys2Proof.Machine

/-! ## The commands that write the encoder -/

/-- `t` is `s` but for the registers of the encoder and the completion record. -/
def SameBesidesEncoder (s t : State) : Prop :=
  SameControl s t ∧ SameResults s t ∧ t.version = s.version ∧ SameSelection s t ∧ SameScores s t ∧ SameCells s t
    ∧ SameAgents s t

/-- R164: a command whose effect is to write registers of the encoder completes, and leaves all else. -/
theorem exec_encoder {i : Instr} {s : State} {n : Byte} {count : BitVec 16} {gen rem : List Byte}
    (hcode : codeOf i s = .ok)
    (heffect : effectOf i s = { s with ecLen := n, feedCnt := count, gen := gen, rem := rem }) :
    ∃ t, exec i s = .next t ∧ Completed .ok i.opcode s t ∧ t.ecLen = n ∧ t.feedCnt = count ∧ t.gen = gen ∧ t.rem = rem
      ∧ SameBesidesEncoder s t := by
  refine ⟨_, exec_ok hcode, ?_⟩
  rw [heffect]
  simp [Completed, SameBesidesEncoder, SameControl, SameResults, SameSelection, SameScores, SameCells, SameAgents,
    State.byteAt]

/-- R164: a command whose code is not OK writes the completion record only. -/
theorem exec_onlyCompleted {i : Instr} {s : State} {code : ResultCode} (hcode : codeOf i s = code) (h : code ≠ .ok) :
    ∃ t, exec i s = .next t ∧ OnlyCompleted code i.opcode s t := by
  subst hcode
  exact ⟨_, exec_failed h, onlyCompleted_complete ..⟩

/-! ## Result codes -/

theorem one_le_toNat_of_ne_zero {n : Byte} (h : n ≠ 0#8) : 1 ≤ n.toNat :=
  Nat.pos_of_ne_zero fun h0 => h (BitVec.eq_of_toNat_eq h0)

theorem rsSetupCode_of_inRange {n : Byte} {s : State} (h1 : 1 ≤ n.toNat) (h : n.toNat ≤ s.params.maxEc.toNat) :
    rsSetupCode n s = .ok := by
  simp [rsSetupCode, codeIf, h1, h]

theorem rsSetupCode_of_outOfRange {n : Byte} {s : State} (h : n.toNat = 0 ∨ s.params.maxEc.toNat < n.toNat) :
    rsSetupCode n s = .badArg := by
  simp only [rsSetupCode, codeIf, ite_eq_right_iff, Bool.and_eq_true, decide_eq_true_eq]
  omega

theorem needsEcLen_of_configured {s : State} (h : s.ecLen ≠ 0#8) : needsEcLen s = .ok := by
  simp [needsEcLen, codeIf, State.rsReady, h]

theorem needsEcLen_of_unconfigured {s : State} (h : s.ecLen = 0#8) : needsEcLen s = .notConfigured := by
  simp [needsEcLen, codeIf, State.rsReady, h]

/-! ## The registers -/

@[simp] theorem length_genRegs (count n : Nat) : (genRegs count n).length = count := by
  simp [genRegs]

/-- `GEN` holds the coefficients below the degree (R33). -/
theorem regAt_genRegs_below {count n i : Nat} (hn : n ≤ count) (hi : i < n) :
    regAt (genRegs count n) i = regAt (genPoly n) i := by
  simp [genRegs, regAt, hi, hi.trans_le hn]

/-- `GEN` is 0 from the degree on (R33). -/
theorem regAt_genRegs_above {count n i : Nat} (hi : n ≤ i) : regAt (genRegs count n) i = 0#8 := by
  by_cases hc : i < count
  · simp [genRegs, regAt, hc, hi.not_gt]
  · simp [genRegs, regAt, hc]

/-- The division step below the last register (R103). -/
theorem regAt_rsStep_below {n j : Nat} {rem : List Byte} (hn : n ≤ rem.length) (hj : j + 1 < n) (gen : List Byte)
    (d : Byte) :
    regAt (rsStep n gen rem d) j = regAt rem (j + 1) ^^^ gfmul (d ^^^ regAt rem 0) (regAt gen (n - 1 - j)) := by
  simp [rsStep, regAt, gfadd, hj, show j < rem.length by omega]

/-- The division step at the last register (R103). -/
theorem regAt_rsStep_last {n : Nat} {rem : List Byte} (hn : n ≤ rem.length) (h1 : 1 ≤ n) (gen : List Byte) (d : Byte) :
    regAt (rsStep n gen rem d) (n - 1) = gfmul (d ^^^ regAt rem 0) (regAt gen 0) := by
  simp [rsStep, regAt, gfadd, show n - 1 < rem.length by omega, Nat.sub_add_cancel h1]

/-- Fed into a clear remainder, a codeword leaves the multiple of the generator by it (R106). -/
theorem regAt_rsStep_of_clear {n j : Nat} {rem : List Byte} (hn : n ≤ rem.length) (hj : j < n)
    (hclear : ∀ j, regAt rem j = 0#8) (gen : List Byte) (d : Byte) :
    regAt (rsStep n gen rem d) j = gfmul d (regAt gen (n - 1 - j)) := by
  obtain hlt | hlast := Nat.lt_or_eq_of_le hj
  · rw [regAt_rsStep_below hn hlt, hclear, hclear, BitVec.zero_xor, BitVec.xor_zero]
  · obtain rfl : j = n - 1 := by omega
    rw [regAt_rsStep_last hn (by omega), hclear, BitVec.xor_zero, Nat.sub_self]

/-! ## The commands -/

/-- RS_SETUP with an argument in range (R104). -/
theorem exec_rsSetup {n : Byte} {s : State} (h1 : 1 ≤ n.toNat) (hn : n.toNat ≤ s.params.maxEc.toNat) :
    ∃ t, exec (.rsSetup n) s = .next t ∧ Completed .ok 0x20#8 s t ∧ t.ecLen = n ∧ t.feedCnt = 0#16
      ∧ t.gen = genRegs s.params.maxEc.toNat n.toNat ∧ t.rem = List.replicate s.params.maxEc.toNat 0#8
      ∧ SameBesidesEncoder s t :=
  exec_encoder (i := .rsSetup n) (rsSetupCode_of_inRange h1 hn) rfl

/-- RS_CLEAR with the encoder configured (R105). -/
theorem exec_rsClear {s : State} (h : s.ecLen ≠ 0#8) :
    ∃ t, exec .rsClear s = .next t ∧ Completed .ok 0x21#8 s t ∧ t.ecLen = s.ecLen ∧ t.feedCnt = 0#16
      ∧ t.gen = s.gen ∧ t.rem = List.replicate s.params.maxEc.toNat 0#8
      ∧ SameBesidesEncoder s t :=
  exec_encoder (i := .rsClear) (needsEcLen_of_configured h) rfl

/-- RS_FEED with the encoder configured (R106). -/
theorem exec_rsFeed {s : State} (h : s.ecLen ≠ 0#8) (d : Byte) :
    ∃ t, exec (.rsFeed d) s = .next t ∧ Completed .ok 0x22#8 s t ∧ t.ecLen = s.ecLen
      ∧ t.feedCnt = s.feedCnt + 1#16 ∧ t.gen = s.gen ∧ t.rem = rsStep s.ecLen.toNat s.gen s.rem d
      ∧ SameBesidesEncoder s t :=
  exec_encoder (i := .rsFeed d) (needsEcLen_of_configured h) rfl

/-- Settles O5: the row of RS_SETUP bounds A by P_MAX_EC and admits B = 0 only, and its effect is to load the
generator. -/
theorem rsSetupLoadsTheGenerator : Obligations.RsSetupLoadsTheGenerator := by
  refine ⟨fun n => by simp [encode, commandWord, Instr.opcode], by decide +kernel, by decide +kernel,
    fun n s => ⟨codesOf_of_row (by decide) ?_ (by simp [unconfiguredFor]), fun h1 hn => ?_,
      fun h => exec_onlyCompleted (i := .rsSetup n) (rsSetupCode_of_outOfRange h) (by decide)⟩⟩
  · intro w
    simp only [argsInRange, BitVec.reduceEq, or_self, if_false, if_true, Bool.and_eq_false_iff,
      decide_eq_false_iff_not, not_le, Nat.lt_one_iff]
    tauto
  · obtain ⟨t, he, hdone, hec, hcount, hgen, hrem, hframe⟩ := exec_rsSetup h1 hn
    have hready : t.rsReady = true := by
      simp [State.rsReady, hec, ← BitVec.toNat_inj, Nat.ne_of_gt h1]
    refine ⟨t, he, hdone, by simp [hgen], by simp [hrem], fun i hi => ?_, fun i hi => ?_, by simp [hrem], hec, hcount,
      hready, hframe⟩
    · rw [hgen]
      exact regAt_genRegs_below hn hi
    · rw [hgen]
      exact regAt_genRegs_above hi

/-- Settles O6: the row of RS_CLEAR admits A = B = 0 only, and its effect is to clear the remainder and the count. -/
theorem rsClearStartsANewBlock : Obligations.RsClearStartsANewBlock := by
  refine ⟨by decide, fun s => ⟨codesOf_of_row (by decide) ?_ (by simp [unconfiguredFor]), fun h => ?_,
    fun h => exec_onlyCompleted (i := .rsClear) (needsEcLen_of_unconfigured h) (by decide)⟩⟩
  · intro w
    simp only [argsInRange, BitVec.reduceEq, or_false, or_true, if_true, Bool.and_eq_false_iff,
      decide_eq_false_iff_not]
    tauto
  · obtain ⟨t, he, hdone, hec, hcount, hgen, hrem, hframe⟩ := exec_rsClear h
    exact ⟨t, he, hdone, by simp [hrem], by simp [hrem], hcount, hgen, hec,
      fun hr hc => ⟨hec, hcount.trans hc.symm, hgen, hrem.trans hr.symm⟩, hframe⟩

/-- Settles O7: the row of RS_FEED admits B = 0 only, and its effect is one division step and a count. -/
theorem rsFeedDividesOneCodeword : Obligations.RsFeedDividesOneCodeword := by
  refine ⟨fun d => by simp [encode, commandWord, Instr.opcode],
    fun d s hinv => ⟨codesOf_of_row (by decide) ?_ (by simp [unconfiguredFor]), fun h => ?_,
      fun h => exec_onlyCompleted (i := .rsFeed d) (needsEcLen_of_unconfigured h) (by decide)⟩⟩
  · simp [argsInRange, or_comm]
  · obtain ⟨t, he, hdone, hec, hcount, hgen, hrem, hframe⟩ := exec_rsFeed h d
    have h1 : 1 ≤ s.ecLen.toNat := one_le_toNat_of_ne_zero h
    have hn : s.ecLen.toNat ≤ s.rem.length := hinv.rem_length ▸ hinv.ecLen_le
    have habove : ∀ j, s.ecLen.toNat ≤ j → regAt t.rem j = 0#8 := fun j hj => by
      rw [hrem, regAt_rsStep_above hj, hinv.rem_above j hj]
    have hclear (hr : ∀ j, regAt s.rem j = 0#8) {j : Nat} (hj : j < s.ecLen.toNat) :
        regAt t.rem j = gfmul d (regAt s.gen (s.ecLen.toNat - 1 - j)) := by
      rw [hrem, regAt_rsStep_of_clear hn hj hr]
    refine ⟨t, he, hdone, fun j hj => hrem ▸ regAt_rsStep_below hn hj .., hrem ▸ regAt_rsStep_last hn h1 .., habove,
      ?_, ?_, ?_, ?_, ?_, hgen, hec, hframe⟩
    · rw [hrem, length_rsStep, hinv.rem_length]
    · simp [hcount]
    · rintro rfl hr j
      obtain hj | hj := Nat.lt_or_ge j s.ecLen.toNat
      · rw [hclear hr hj, gfmul_zero_left]
      · exact habove j hj
    · rintro rfl hr j hj
      rw [hclear hr hj, gfmul_comm, gfmul_one]
    · intro hone
      have hgen0 : regAt s.gen 0 = 1#8 := by
        rw [hinv.gen_eq, regAt_genRegs_below hinv.ecLen_le h1, hone]
        decide
      have hlast := regAt_rsStep_last hn h1 s.gen d
      rwa [← hrem, hgen0, gfmul_one, hone] at hlast

end Sys2Proof.Machine
end

section
/-! PROOFS. The generator polynomial (41_reed_solomon.md R101): each factor multiplies the values by its own, so the
product has the roots of all of them. -/

namespace Sys2Proof.Machine

open Sys2Proof.Reference

/-! ## A linear factor -/

/-- The value of a polynomial given from x⁰ up. -/
theorem polyEval_reverse_cons (d x : Byte) (c : List Byte) :
    polyEval (d :: c).reverse x = gfmul (polyEval c.reverse x) x ^^^ d := by
  simp [polyEval, gfadd]

/-- The inner loop of `gen`, with the coefficient that the shift brings in at its lower end. -/
theorem polyEval_reverse_zipWith (c : List Byte) (y a x : Byte) :
    polyEval (List.zipWith gfadd (y :: c) (c.map (fun d => gfmul d a) ++ [0#8])).reverse x
      = gfmul (polyEval c.reverse x) (x ^^^ a) ^^^ y := by
  induction c generalizing y with
  | nil => simp [polyEval, gfadd]
  | cons d c ih =>
    rw [List.map_cons, List.cons_append, List.zipWith_cons_cons, polyEval_reverse_cons, ih, polyEval_reverse_cons,
      gfadd]
    have hcomm : gfmul (gfmul (polyEval c.reverse x) (x ^^^ a)) x
        = gfmul (gfmul (polyEval c.reverse x) x) (x ^^^ a) := by
      rw [gfmul_assoc, gfmul_assoc, gfmul_comm x]
    rw [gfmul_xor_left, hcomm, gfmul_xor_left, gfmul_xor_right d]
    ac_rfl

/-- The inner loop of `gen` multiplies by (x ⊕ a) (R101). -/
theorem polyEval_reverse_mulLinear (c : List Byte) (a x : Byte) :
    polyEval (mulLinear c a).reverse x = gfmul (polyEval c.reverse x) (x ^^^ a) := by
  rw [mulLinear, polyEval_reverse_zipWith, BitVec.xor_zero]

@[simp] theorem length_mulLinear (c : List Byte) (a : Byte) : (mulLinear c a).length = c.length + 1 := by
  simp [mulLinear]

/-- The leading coefficient stays. -/
theorem regAt_mulLinear_lead {c : List Byte} {n : Nat} (h : c.length = n + 1) (a : Byte) :
    regAt (mulLinear c a) (n + 1) = regAt c n := by
  simp [mulLinear, regAt, h, gfadd]

/-! ## The generator -/

theorem genPoly_succ (n : Nat) : genPoly (n + 1) = mulLinear (genPoly n) (alphaPow n) := by
  rw [genPoly, List.range_succ, List.foldl_append]
  rfl

@[simp] theorem length_genPoly (n : Nat) : (genPoly n).length = n + 1 := by
  induction n with
  | zero => rfl
  | succ n ih => rw [genPoly_succ, length_mulLinear, ih]

theorem regAt_genPoly_lead (n : Nat) : regAt (genPoly n) n = 1#8 := by
  induction n with
  | zero => rfl
  | succ n ih => rw [genPoly_succ, regAt_mulLinear_lead (length_genPoly n), ih]

theorem polyEval_genPoly_root {n i : Nat} (h : i < n) : polyEval (genPoly n).reverse (alphaPow i) = 0#8 := by
  induction n with
  | zero => omega
  | succ n ih =>
    rw [genPoly_succ, polyEval_reverse_mulLinear]
    obtain hlt | rfl := Nat.lt_succ_iff_lt_or_eq.mp h
    · rw [ih hlt, gfmul_zero_left]
    · rw [BitVec.xor_self, gfmul_zero_right]

/-- Settles O50: each factor adds a degree, keeps the leading 1 and adds a root. -/
theorem generatorHasItsRoots : Obligations.GeneratorHasItsRoots := fun n =>
  ⟨length_genPoly n, regAt_genPoly_lead n, fun _ => polyEval_genPoly_root⟩

end Sys2Proof.Machine
end

section
/-! PROOFS. RS_FEED as long division (41_reed_solomon.md R102, R110). A division step changes only as many coefficients
as the divisor has, so the registers need hold no more than what the steps have added to the data still to come. -/

namespace Sys2Proof.Machine

open Sys2Proof.Reference

/-! ## Adding to the front of a polynomial -/

/-- Add the coefficients `r` to the highest coefficients of `p`. -/
def addFront : List Byte → List Byte → List Byte
  | r :: rs, p :: ps => gfadd p r :: addFront rs ps
  | [], ps => ps
  | _ :: _, [] => []

@[simp] theorem addFront_nil (p : List Byte) : addFront [] p = p := by
  cases p <;> rfl

@[simp] theorem length_addFront (r p : List Byte) : (addFront r p).length = p.length := by
  induction r generalizing p with
  | nil => simp
  | cons r rs ih =>
    cases p with
    | nil => rfl
    | cons p ps => simp [addFront, ih]

theorem subtractScaled_eq_addFront (lead : Byte) (g p : List Byte) :
    subtractScaled lead g p = addFront (g.map (gfmul lead)) p := by
  induction g generalizing p with
  | nil => cases p <;> rfl
  | cons g gs ih =>
    cases p with
    | nil => rfl
    | cons p ps => exact congrArg _ (ih ps)

/-- What is added can be added up first. -/
theorem addFront_addFront {a b p : List Byte} (hb : b.length ≤ a.length) (ha : a.length ≤ p.length) :
    addFront a (addFront b p) = addFront (addFront b a) p := by
  induction p generalizing a b with
  | nil =>
    obtain rfl : a = [] := by simpa using ha
    obtain rfl : b = [] := by simpa using hb
    rfl
  | cons p ps ih =>
    cases b with
    | nil => simp
    | cons b bs =>
      cases a with
      | nil => simp at hb
      | cons a as =>
        simp only [addFront, gfadd, ih (Nat.le_of_succ_le_succ hb) (Nat.le_of_succ_le_succ ha), BitVec.xor_assoc,
          BitVec.xor_comm b]

@[simp] theorem addFront_zeros (n : Nat) (p : List Byte) : addFront (List.replicate n 0#8) p = p := by
  induction n generalizing p with
  | zero => simp
  | succ n ih => cases p <;> simp [List.replicate_succ, addFront, gfadd, ih]

theorem addFront_zeros_right {n : Nat} {r : List Byte} (h : r.length = n) : addFront r (List.replicate n 0#8) = r := by
  subst h
  induction r with
  | nil => rfl
  | cons r rs ih => simp [List.replicate_succ, addFront, gfadd, ih]

theorem addFront_self (r : List Byte) : addFront r r = List.replicate r.length 0#8 := by
  induction r with
  | nil => rfl
  | cons r rs ih => simp [List.replicate_succ, addFront, gfadd, ih]

theorem regAt_addFront {r p : List Byte} (h : r.length ≤ p.length) (i : Nat) :
    regAt (addFront r p) i = regAt p i ^^^ regAt r i := by
  induction r generalizing p i with
  | nil => simp [regAt]
  | cons r rs ih =>
    cases p with
    | nil => simp at h
    | cons p ps =>
      cases i with
      | zero => rfl
      | succ i => exact ih (Nat.le_of_succ_le_succ h) i

/-! ## Dividing in one codeword -/

/-- One division step of `x·r(x) + d·xⁿ` by the monic polynomial with the lower coefficients `g` (R103). -/
def divideIn (g r : List Byte) (d : Byte) : List Byte := addFront r.tail (g.map (gfmul (gfadd d (regAt r 0))))

@[simp] theorem length_divideIn (g r : List Byte) (d : Byte) : (divideIn g r d).length = g.length := by
  simp [divideIn]

@[simp] theorem length_foldl_divideIn {g r : List Byte} (hr : r.length = g.length) (data : List Byte) :
    (data.foldl (divideIn g) r).length = g.length := by
  induction data generalizing r with
  | nil => exact hr
  | cons d ds ih => exact ih (length_divideIn g r d)

/-- A step of long division cancels the leading term and leaves `divideIn` to be added to what follows. -/
theorem divideStep_addFront {g r q : List Byte} (hr : r.length = g.length) (hg : g ≠ []) (hq : g.length ≤ q.length)
    (d : Byte) : divideStep g (addFront r (d :: q)) = addFront (divideIn g r d) q := by
  cases r with
  | nil => exact absurd (List.length_eq_zero_iff.mp hr.symm) hg
  | cons r rs =>
    simp only [addFront, divideStep, subtractScaled_eq_addFront, divideIn]
    refine addFront_addFront ?_ ?_
    · simp only [List.length_map, List.length_cons] at *
      omega
    · simpa using hq

/-- Long division of the data with `r` added in front leaves the registers that hold the same data divided in. -/
theorem longDivide_addFront {g r q : List Byte} (hr : r.length = g.length) (hg : g ≠ []) (hq : g.length ≤ q.length)
    (data : List Byte) :
    longDivide g data.length (addFront r (data ++ q)) = addFront (data.foldl (divideIn g) r) q := by
  induction data generalizing r with
  | nil => rfl
  | cons d ds ih =>
    rw [List.length_cons, longDivide, List.cons_append, divideStep_addFront hr hg (by simp; omega),
      ih (length_divideIn g r d), List.foldl_cons]

/-! ## The remainder -/

@[simp] theorem length_generatorLow (n : Nat) : (generatorLow n).length = n := by
  simp [generatorLow]

theorem generatorLow_ne_nil {n : Nat} (h : 1 ≤ n) : generatorLow n ≠ [] :=
  List.ne_nil_of_length_pos ((length_generatorLow n).symm ▸ h)

/-- Long division by the generator of the data with `q` behind them, from a clear remainder. -/
theorem longDivide_generator {n : Nat} (h : 1 ≤ n) (data : List Byte) {q : List Byte} (hq : n ≤ q.length) :
    longDivide (generatorLow n) data.length (data ++ q)
      = addFront (data.foldl (divideIn (generatorLow n)) (List.replicate n 0#8)) q := by
  rw [← longDivide_addFront (by simp) (generatorLow_ne_nil h) (by simpa using hq), addFront_zeros]

/-- The registers after the data have been divided into a clear remainder are the remainder (R102). -/
theorem foldl_divideIn_zeros {n : Nat} (h : 1 ≤ n) (data : List Byte) :
    data.foldl (divideIn (generatorLow n)) (List.replicate n 0#8) = remainderOf n data := by
  rw [remainderOf, longDivide_generator h data (by simp), addFront_zeros_right (by simp)]

theorem length_remainderOf {n : Nat} (h : 1 ≤ n) (data : List Byte) : (remainderOf n data).length = n := by
  simp [← foldl_divideIn_zeros h]

/-- R110: the data with their remainder behind them leave no remainder. -/
theorem longDivide_append_remainderOf {n : Nat} (h : 1 ≤ n) (data : List Byte) :
    longDivide (generatorLow n) data.length (data ++ remainderOf n data) = List.replicate n 0#8 := by
  have hlen := length_remainderOf h data
  rw [longDivide_generator h data hlen.ge, foldl_divideIn_zeros h, addFront_self, hlen]

/-! ## The roots of a codeword -/

/-- Horner's rule from the value `v` of the coefficients before. -/
def horner (x v : Byte) (p : List Byte) : Byte := p.foldl (fun acc d => gfadd (gfmul acc x) d) v

theorem polyEval_cons (a x : Byte) (p : List Byte) : polyEval (a :: p) x = horner x a p := by
  simp [polyEval, horner, gfadd]

/-- Subtracting a multiple of a polynomial that vanishes at x, `v` being the value of its coefficients before `g`,
changes no value at x. -/
theorem horner_subtractScaled {g p : List Byte} {x v : Byte} (hroot : horner x v g = 0#8)
    (hlen : g.length ≤ p.length) (lead acc : Byte) :
    horner x acc (subtractScaled lead g p) = horner x (acc ^^^ gfmul lead v) p := by
  induction g generalizing p v acc with
  | nil =>
    obtain rfl : v = 0#8 := hroot
    cases p <;> simp [subtractScaled]
  | cons g gs ih =>
    cases p with
    | nil => simp at hlen
    | cons p ps =>
      have hstep := ih hroot (Nat.le_of_succ_le_succ hlen) (gfadd (gfmul acc x) (gfadd p (gfmul lead g)))
      refine hstep.trans (congrArg (horner x · ps) ?_)
      simp only [gfadd]
      calc gfmul acc x ^^^ (p ^^^ gfmul lead g) ^^^ gfmul lead (gfmul v x ^^^ g)
          = gfmul acc x ^^^ gfmul lead (gfmul v x) ^^^ p ^^^ (gfmul lead g ^^^ gfmul lead g) := by
            rw [gfmul_xor_right]
            ac_rfl
        _ = gfmul (acc ^^^ gfmul lead v) x ^^^ p := by
            rw [BitVec.xor_self, BitVec.xor_zero, gfmul_xor_left, gfmul_assoc]

/-- A step of long division by a polynomial that vanishes at x changes no value at x. -/
theorem polyEval_divideStep {g p : List Byte} {x : Byte} (hroot : polyEval (1#8 :: g) x = 0#8)
    (hlen : g.length < p.length) : polyEval (divideStep g p) x = polyEval p x := by
  cases p with
  | nil => rfl
  | cons lead rest =>
    rw [polyEval_cons] at hroot ⊢
    have h := horner_subtractScaled hroot (Nat.le_of_lt_succ hlen) lead 0#8
    rwa [gfmul_one, BitVec.zero_xor] at h

theorem length_divideStep (g p : List Byte) : (divideStep g p).length = p.length - 1 := by
  cases p with
  | nil => rfl
  | cons lead rest => simp [divideStep, subtractScaled_eq_addFront]

theorem polyEval_longDivide {g : List Byte} {x : Byte} (hroot : polyEval (1#8 :: g) x = 0#8) {k : Nat} {p : List Byte}
    (hlen : k + g.length ≤ p.length) : polyEval (longDivide g k p) x = polyEval p x := by
  induction k generalizing p with
  | zero => rfl
  | succ k ih =>
    rw [longDivide, ih (by rw [length_divideStep]; omega), polyEval_divideStep hroot (by omega)]

theorem polyEval_zeros (n : Nat) (x : Byte) : polyEval (List.replicate n 0#8) x = 0#8 := by
  induction n with
  | zero => rfl
  | succ n ih =>
    rw [List.replicate_succ, polyEval_cons]
    exact ih

/-- The generator from the highest degree down is its leading 1 and the coefficients below. -/
theorem reverse_genPoly (n : Nat) : (genPoly n).reverse = 1#8 :: generatorLow n := by
  have hlead : (genPoly n)[n]'(by simp) = 1#8 := by simpa [regAt] using regAt_genPoly_lead n
  have hsplit : genPoly n = (genPoly n).take n ++ [1#8] := by
    rw [← hlead, List.take_append_getElem, List.take_of_length_le (by simp)]
  rw [generatorLow, ← List.reverse_concat, ← hsplit]

/-- R110: a polynomial that long division by the generator brings to 0 has the generator's roots. -/
theorem polyEval_root_of_longDivide {n k i : Nat} {p : List Byte} (hlen : k + n ≤ p.length) (hi : i < n)
    (hdiv : longDivide (generatorLow n) k p = List.replicate n 0#8) : polyEval p (alphaPow i) = 0#8 := by
  have hroot : polyEval (1#8 :: generatorLow n) (alphaPow i) = 0#8 := reverse_genPoly n ▸ polyEval_genPoly_root hi
  rw [← polyEval_longDivide hroot (by simpa using hlen), hdiv, polyEval_zeros]

end Sys2Proof.Machine
end

section
/-! PROOFS. A block of data fed to the encoder (41_reed_solomon.md R102, R110): the registers follow the division, from
RS_SETUP or RS_CLEAR on. -/

namespace Sys2Proof.Machine

open Sys2Proof.Reference

/-! ## Register arrays, by index -/

theorem regAt_take {n i : Nat} (h : i < n) (regs : List Byte) : regAt (regs.take n) i = regAt regs i := by
  simp [regAt, h]

/-- Register arrays of the same length that read the same are the same. -/
theorem ext_regAt {a b : List Byte} (hlen : a.length = b.length) (h : ∀ i < a.length, regAt a i = regAt b i) : a = b :=
  List.ext_getElem hlen fun i ha hb => by simpa [regAt, ha, hb] using h i ha

theorem regAt_tail (r : List Byte) (i : Nat) : regAt r.tail i = regAt r (i + 1) := by
  simp [regAt]

theorem regAt_map_gfmul (c : Byte) (g : List Byte) (i : Nat) :
    regAt (g.map (gfmul c)) i = gfmul c (regAt g i) := by
  by_cases h : i < g.length
  · simp [regAt, h]
  · simp [regAt, h]

theorem regAt_of_length_le {regs : List Byte} {i : Nat} (h : regs.length ≤ i) : regAt regs i = 0#8 := by
  simp [regAt, h]

theorem regAt_reverse {regs : List Byte} {i : Nat} (h : i < regs.length) :
    regAt regs.reverse i = regAt regs (regs.length - 1 - i) := by
  rw [regAt, List.getD, List.getElem?_reverse h]
  rfl

/-! ## The registers hold the divided data -/

/-- The lower coefficients of the generator are the registers `GEN` from the last down. -/
theorem regAt_generatorLow {count n j : Nat} (hn : n ≤ count) (hj : j < n) :
    regAt (generatorLow n) j = regAt (genRegs count n) (n - 1 - j) := by
  have hlen : ((genPoly n).take n).length = n := by simp
  have hlt : n - 1 - j < n := by omega
  rw [generatorLow, regAt_reverse (hlen.symm ▸ hj), hlen, regAt_take hlt, regAt_genRegs_below hn hlt]

/-- RS_FEED's step on the registers below the degree divides the codeword in. -/
theorem take_rsStep {count n : Nat} {rem : List Byte} (h1 : 1 ≤ n) (hn : n ≤ count) (hrem : n ≤ rem.length) (d : Byte) :
    (rsStep n (genRegs count n) rem d).take n = divideIn (generatorLow n) (rem.take n) d := by
  refine ext_regAt (by simp [hrem]) fun j hlen => ?_
  have hj : j < n := hlen.trans_le (List.length_take_le n _)
  rw [regAt_take hj, divideIn, regAt_addFront (by simp), regAt_map_gfmul, regAt_tail, regAt_take h1,
    regAt_generatorLow hn hj]
  obtain hlt | hlast := Nat.lt_or_eq_of_le hj
  · rw [regAt_rsStep_below hrem hlt, regAt_take hlt, BitVec.xor_comm, gfadd]
  · obtain rfl : j = n - 1 := by omega
    rw [regAt_rsStep_last hrem h1, Nat.sub_self, Nat.sub_add_cancel h1,
      regAt_of_length_le (List.length_take_le n rem), BitVec.xor_zero, gfadd]

theorem take_foldl_rsStep {count n : Nat} {rem : List Byte} (h1 : 1 ≤ n) (hn : n ≤ count) (hrem : n ≤ rem.length)
    (data : List Byte) :
    (data.foldl (rsStep n (genRegs count n)) rem).take n = data.foldl (divideIn (generatorLow n)) (rem.take n) := by
  induction data generalizing rem with
  | nil => rfl
  | cons d ds ih => rw [List.foldl_cons, List.foldl_cons, ih (by simpa using hrem), take_rsStep h1 hn hrem]

/-! ## The commands of a block -/

theorem execAll_cons {i : Instr} {s t : State} (h : exec i s = .next t) (rest : List Instr) :
    execAll (i :: rest) s = execAll rest t := by
  simp only [execAll, h]

/-- R106: feeding a list of codewords takes one division step for each, and counts them. -/
theorem execAll_rsFeed {s : State} (h : s.ecLen ≠ 0#8) (data : List Byte) :
    ∃ t, execAll (data.map Instr.rsFeed) s = .next t ∧ t.rem = data.foldl (rsStep s.ecLen.toNat s.gen) s.rem
      ∧ t.feedCnt = s.feedCnt + BitVec.ofNat 16 data.length := by
  induction data generalizing s with
  | nil => exact ⟨s, rfl, rfl, by simp⟩
  | cons d ds ih =>
    obtain ⟨t, he, -, hec, hcount, hgen, hrem, -⟩ := exec_rsFeed h d
    obtain ⟨u, hu, hurem, hucount⟩ := ih (hec ▸ h)
    refine ⟨u, (execAll_cons he _).trans hu, ?_, ?_⟩
    · rw [hurem, hec, hgen, hrem]
      rfl
    · rw [hucount, hcount, List.length_cons, BitVec.ofNat_add, BitVec.add_assoc, BitVec.add_comm 1#16]

/-- R102: the data fed after a command that leaves the encoder with a clear remainder. -/
theorem execAll_block {i : Instr} {s t : State} {n : Byte} {count : Nat} (he : exec i s = .next t) (hn : n ≠ 0#8)
    (hle : n.toNat ≤ count) (hec : t.ecLen = n) (hcount : t.feedCnt = 0#16) (hgen : t.gen = genRegs count n.toNat)
    (hrem : t.rem = List.replicate count 0#8) (data : List Byte) :
    ∃ u, execAll (i :: data.map Instr.rsFeed) s = .next u ∧ u.rem.take n.toNat = remainderOf n.toNat data
      ∧ u.feedCnt = BitVec.ofNat 16 data.length := by
  have h1 : 1 ≤ n.toNat := one_le_toNat_of_ne_zero hn
  obtain ⟨u, hu, hurem, hucount⟩ := execAll_rsFeed (hec ▸ hn) data
  refine ⟨u, (execAll_cons he _).trans hu, ?_, ?_⟩
  · rw [hurem, hec, hgen, hrem, take_foldl_rsStep h1 hle (by simpa using hle), List.take_replicate,
      Nat.min_eq_left hle, foldl_divideIn_zeros h1]
  · rw [hucount, hcount, BitVec.zero_add]

/-- Settles O51: RS_SETUP and RS_CLEAR leave a clear remainder, and each RS_FEED divides its codeword in. -/
theorem remainderIsLongDivision : Obligations.RemainderIsLongDivision := by
  refine ⟨fun n data s h1 hn => ?_, fun data s hinv h => ?_, fun n => rfl⟩
  · obtain ⟨t, he, -, hec, hcount, hgen, hrem, -⟩ := exec_rsSetup h1 hn
    have hne : n ≠ 0#8 := by
      rintro rfl
      simp at h1
    exact execAll_block he hne hn hec hcount hgen hrem data
  · obtain ⟨t, he, -, hec, hcount, hgen, hrem, -⟩ := exec_rsClear h
    exact execAll_block he h hinv.ecLen_le hec hcount (hgen.trans hinv.gen_eq) hrem data

/-- Settles O52: the remainder behind the data makes them a multiple of the generator, whose roots they then have. -/
theorem codewordHasTheGeneratorsRoots : Obligations.CodewordHasTheGeneratorsRoots := by
  intro n data s h1 hn
  obtain ⟨hsetup, -, -⟩ := remainderIsLongDivision
  obtain ⟨t, he, hrem, -⟩ := hsetup n data s h1 hn
  have hdiv := longDivide_append_remainderOf h1 data
  rw [← hrem] at hdiv
  have hlen : data.length + n.toNat ≤ (data ++ t.rem.take n.toNat).length := by
    rw [List.length_append, hrem, length_remainderOf h1]
  exact ⟨t, he, hdiv, fun i hi => polyEval_root_of_longDivide hlen hi hdiv⟩

end Sys2Proof.Machine
end

section
/-! PROOFS. The candidates and the lines of a matrix, by index (42_mask_penalty.md R120 to R122): a sum over a list is a
sum over its positions, and the rows and columns of an N × N matrix are its 2N lines. -/

namespace Sys2Proof.Machine

open Sys2Proof.Reference

/-! ## The mask formulas and the candidates -/

/-- Settles O54: the eight cases of `maskFn`. -/
theorem maskFormulas : Obligations.MaskFormulas := by
  intro r c
  simp [maskFn]

/-- Candidate m of the active region, cell by cell. -/
theorem candidate_active (m : MaskId) (s : State) :
    candidate m s.active = (List.range s.side).map fun r => (List.range s.side).map fun c =>
      maskedDark m r c (s.cellAt r c) := by
  refine List.ext_getElem (by simp [candidate, State.active]) fun r _ _ => ?_
  refine List.ext_getElem (by simp [candidate, State.active]) fun c _ _ => ?_
  simp [candidate, State.active]

theorem square_candidate_active (m : MaskId) (s : State) : square s.side (candidate m s.active) := by
  rw [candidate_active]
  refine ⟨by simp, fun row hrow => ?_⟩
  obtain ⟨r, -, rfl⟩ := List.mem_map.mp hrow
  simp

/-- Settles O55: the candidate is the table of the masked colours. -/
theorem candidateFlipsDataCells : Obligations.CandidateFlipsDataCells := by
  refine fun m s => ⟨square_candidate_active m s, fun r c hr hc => ?_⟩
  simp [candidate_active, at2, maskedDark, hr, hc]

/-! ## Sums over lists and lines -/

/-- A sum over a list is a sum over its positions. -/
theorem sum_map_eq_sum_range {α : Type} (f : α → Nat) (d : α) (l : List α) :
    (l.map f).sum = ∑ i ∈ Finset.range l.length, f (l.getD i d) := by
  induction l with
  | nil => simp
  | cons x xs ih => simp [Finset.sum_range_succ', ih, add_comm]

/-- The columns of an N × N matrix have N modules each, as its rows have. -/
theorem length_of_mem_matLines {n : Nat} {mat : List (List Bool)} (h : square n mat) :
    ∀ line ∈ matLines mat, line.length = n := by
  obtain ⟨rfl, hrow⟩ := h
  intro line hline
  obtain hline | hline := List.mem_append.mp hline
  · exact hrow line hline
  · obtain ⟨c, -, rfl⟩ := List.mem_map.mp hline
    simp

/-- Column c of a matrix, by index. -/
theorem getD_column (mat : List (List Bool)) (c r : Nat) :
    (mat.map fun row => row.getD c false).getD r false = at2 mat r c := by
  by_cases h : r < mat.length <;> simp [at2, h]

/-- R122: a quantity of each line that can be said by index, summed over the 2N lines. -/
theorem sum_matLines {n : Nat} {mat : List (List Bool)} (h : square n mat) {f : List Bool → Nat}
    {g : (Nat → Bool) → Nat} (hfg : ∀ line, line.length = n → f line = g (line.getD · false)) :
    ((matLines mat).map f).sum = overLines n mat g := by
  have hlen := length_of_mem_matLines h
  have hline : ((matLines mat).map f).sum = ((matLines mat).map fun line => g (line.getD · false)).sum :=
    congrArg List.sum (List.map_congr_left fun line hmem => hfg line (hlen line hmem))
  obtain ⟨rfl, -⟩ := h
  rw [hline, matLines, List.map_append, List.sum_append, overLines]
  congr 1
  · exact sum_map_eq_sum_range (fun row => g (row.getD · false)) [] mat
  · rw [sum_map_eq_sum_range _ [], columns, List.length_map, List.length_range]
    refine Finset.sum_congr rfl fun c hc => congrArg g (funext fun r => ?_)
    rw [← getD_column]
    simp [Finset.mem_range.mp hc]

/-- A bound for every line bounds the sum over the 2N lines. -/
theorem sum_matLines_le {n b : Nat} {mat : List (List Bool)} (h : square n mat) {f : List Bool → Nat}
    (hf : ∀ line, line.length = n → f line ≤ b) : ((matLines mat).map f).sum ≤ 2 * n * b := by
  have hcount : (matLines mat).length = 2 * n := by
    simp [matLines, columns, h.1, two_mul]
  have hsum := List.sum_le_card_nsmul ((matLines mat).map f) b (by
    simpa using fun line hline => hf line (length_of_mem_matLines h line hline))
  simpa [hcount] using hsum

end Sys2Proof.Machine
end

section
/-! PROOFS. Rule 1 (42_mask_penalty.md R123): the first run of a line and the runs after it are the maximal runs by
index. -/

namespace Sys2Proof.Machine

open Sys2Proof.Reference

/-- The sum of rule 1 over one line, with any bound on the length of a run that leaves none out. -/
theorem runsOfLine_eq {n N : Nat} (h : n ≤ N) (line : Nat → Bool) :
    runsOfLine n line = ∑ i ∈ Finset.range n, ∑ len ∈ Finset.range (N + 1),
      if maximalRun n line i len then runPenalty len else 0 := by
  have hwide (i : Nat) : (∑ len ∈ Finset.range (n + 1), if maximalRun n line i len then runPenalty len else 0)
      = ∑ len ∈ Finset.range (N + 1), if maximalRun n line i len then runPenalty len else 0 := by
    refine Finset.sum_subset (Finset.range_mono (by omega)) fun len _ hlen => if_neg fun hrun => hlen ?_
    have hle : i + len ≤ n := hrun.2.1
    exact Finset.mem_range.mpr (by omega)
  refine Finset.sum_congr rfl fun i _ => Eq.trans (Finset.sum_congr rfl fun len _ => ?_) (hwide i)
  exact ite_and ..

section FirstRun

variable {k m : Nat} {line : Nat → Bool} (hk : 0 < k) (hrun : ∀ j < k, line j = line 0)
  (hend : m = 0 ∨ line k ≠ line 0)

include hk hrun hend

/-- A maximal run that begins inside the first run is the first run. -/
theorem maximalRun_inside_first {i len : Nat} (hi : i < k) :
    maximalRun (k + m) line i len ↔ i = 0 ∧ len = k := by
  constructor
  · rintro ⟨hpos, hle, hsame, hleft, hright⟩
    obtain rfl : i = 0 := by
      refine hleft.resolve_right fun hne => hne ?_
      rw [hrun _ (by omega), hrun i hi]
    refine ⟨rfl, ?_⟩
    simp only [Nat.zero_add] at hle hsame hright
    obtain hlt | heq | hgt := Nat.lt_trichotomy len k
    · exact absurd (hrun len hlt) (hright.resolve_left (by omega))
    · exact heq
    · exact absurd (hsame k hgt) (hend.resolve_left (by omega))
  · rintro ⟨rfl, rfl⟩
    simp only [maximalRun, Nat.zero_add]
    exact ⟨hk, by omega, hrun, .inl trivial, hend.imp_left (by omega)⟩

/-- The maximal runs after the first run are those of the rest of the line. -/
theorem maximalRun_after_first {i len : Nat} (hi : i < m) :
    maximalRun (k + m) line (k + i) len ↔ maximalRun m (fun j => line (k + j)) i len := by
  have hleft : (k + i = 0 ∨ line (k + i - 1) ≠ line (k + i)) ↔ (i = 0 ∨ line (k + (i - 1)) ≠ line (k + i)) := by
    obtain rfl | hpos := Nat.eq_zero_or_pos i
    · have hbefore : line (k - 1) ≠ line k := by
        rw [hrun _ (by omega)]
        exact (hend.resolve_left (by omega)).symm
      simp [hbefore]
    · rw [Nat.add_sub_assoc hpos]
      simp [hk.ne', hpos.ne']
  simp only [maximalRun, hleft, Nat.add_assoc, Nat.add_le_add_iff_left, Nat.add_right_inj]

/-- R123: what the first run adds, and what the rest of the line adds. -/
theorem runsOfLine_first : runsOfLine (k + m) line = runPenalty k + runsOfLine m (fun j => line (k + j)) := by
  rw [runsOfLine_eq le_rfl, runsOfLine_eq (Nat.le_add_left m k), Finset.sum_range_add]
  congr 1
  · have honly : ∀ i ∈ Finset.range k, ∀ len,
        (if maximalRun (k + m) line i len then runPenalty len else 0)
          = if i = 0 ∧ len = k then runPenalty len else 0 := by
      intro i hi len
      simp only [maximalRun_inside_first hk hrun hend (Finset.mem_range.mp hi)]
    rw [Finset.sum_congr rfl fun i hi => Finset.sum_congr rfl fun len _ => honly i hi len]
    simp [ite_and, hk]
  · refine Finset.sum_congr rfl fun i hi => Finset.sum_congr rfl fun len _ => ?_
    simp only [maximalRun_after_first hk hrun hend (Finset.mem_range.mp hi)]

end FirstRun

theorem getD_replicate_append_first {j k : Nat} (h : j < k) (b : Bool) (xs : List Bool) :
    (List.replicate k b ++ xs).getD j false = b := by
  rw [List.getD_append _ _ _ _ (by simpa using h), List.getD_replicate _ h]

theorem getD_replicate_append_rest (k j : Nat) (b : Bool) (xs : List Bool) :
    (List.replicate k b ++ xs).getD (k + j) false = xs.getD j false := by
  rw [List.getD_append_right _ _ _ _ (by simp)]
  simp

/-- R123: a line that begins with `k` modules of one colour, and goes on with the other colour if at all. -/
theorem runsOfLine_replicate_append {b : Bool} {k : Nat} (hk : 0 < k) {xs : List Bool} (hend : ∀ y ∈ xs.head?, y ≠ b) :
    runsOfLine (k + xs.length) ((List.replicate k b ++ xs).getD · false)
      = runPenalty k + runsOfLine xs.length (xs.getD · false) := by
  have hfirst {j : Nat} (hj : j < k) := getD_replicate_append_first hj b xs
  rw [runsOfLine_first hk (fun j hj => by rw [hfirst hj, hfirst hk])]
  · simp only [getD_replicate_append_rest]
  · cases xs with
    | nil => exact .inl rfl
    | cons y ys =>
      have hnext : (List.replicate k b ++ y :: ys).getD k false = y := getD_replicate_append_rest k 0 b (y :: ys)
      exact .inr (by rw [hnext, hfirst hk]; exact hend y rfl)

/-- The runs found from inside a run are the maximal runs of the whole line. -/
theorem sum_runsFrom {b : Bool} {k : Nat} (hk : 0 < k) (xs : List Bool) :
    ((runsFrom b k xs).map runPenalty).sum
      = runsOfLine (k + xs.length) ((List.replicate k b ++ xs).getD · false) := by
  induction xs generalizing b k with
  | nil =>
    rw [runsOfLine_replicate_append hk (by simp)]
    simp [runsFrom, runsOfLine]
  | cons x xs ih =>
    by_cases hx : x = b
    · subst hx
      have hline : List.replicate (k + 1) x ++ xs = List.replicate k x ++ x :: xs := by
        rw [List.replicate_succ', List.append_assoc, List.singleton_append]
      rw [runsFrom, if_pos rfl, ih k.succ_pos, hline, List.length_cons, Nat.succ_add_eq_add_succ]
    · rw [runsFrom, if_neg hx, List.map_cons, List.sum_cons, ih one_pos, runsOfLine_replicate_append hk (by simpa),
        List.length_cons, Nat.add_comm 1, List.replicate_one, List.singleton_append]

theorem sum_runs (line : List Bool) :
    ((runs line).map runPenalty).sum = runsOfLine line.length (line.getD · false) := by
  cases line with
  | nil => rfl
  | cons x xs => simp [runs, sum_runsFrom one_pos, Nat.add_comm]

/-- Settles O56: the runs of each line are its maximal runs, first by first. -/
theorem penalty1SumsMaximalRuns : Obligations.Penalty1SumsMaximalRuns := by
  refine fun n mat h => sum_matLines h fun line hline => ?_
  rw [sum_runs, hline]

end Sys2Proof.Machine
end

section
/-! PROOFS. Rules 2 to 4 by index (42_mask_penalty.md R124 to R126), and the bounds of all four (R129). -/

namespace Sys2Proof.Machine

open Sys2Proof.Reference

/-! ## Rule 2 -/

/-- Two rows of equal length have the 2 × 2 windows of the matrix they make. -/
theorem blocksInRows_eq (top bot : List Bool) (rest : List (List Bool)) (h : bot.length = top.length) :
    blocksInRows top bot
      = ∑ c ∈ Finset.range (top.length - 1), if oneColour (top :: bot :: rest) 0 c then 1 else 0 := by
  induction top, bot using blocksInRows.induct with
  | case1 a b top c d bot ih =>
    rw [blocksInRows, ih (by simpa using h)]
    simp only [List.length_cons, Nat.add_sub_cancel]
    rw [Finset.sum_range_succ', Nat.add_comm]
    rfl
  | case2 top bot hne =>
    match top, bot with
    | [], _ | [_], _ => simp [blocksInRows]
    | a :: b :: top, c :: d :: bot => exact absurd rfl (hne a b top c d bot rfl)
    | _ :: _ :: _, [] | _ :: _ :: _, [_] => simp at h

theorem blockCount_eq {n : Nat} (mat : List (List Bool)) (h : ∀ row ∈ mat, row.length = n) :
    blockCount mat = ∑ r ∈ Finset.range (mat.length - 1), ∑ c ∈ Finset.range (n - 1),
      if oneColour mat r c then 1 else 0 := by
  induction mat using blockCount.induct with
  | case1 top bot rest ih =>
    have htop : top.length = n := h top (by simp)
    have hbot : bot.length = n := h bot (by simp)
    rw [blockCount, ih fun row hrow => h row (List.mem_cons_of_mem _ hrow),
      blocksInRows_eq top bot rest (hbot.trans htop.symm), htop]
    simp only [List.length_cons, Nat.add_sub_cancel]
    rw [Finset.sum_range_succ', Nat.add_comm]
    rfl
  | case2 mat hne =>
    match mat with
    | [] | [_] => simp [blockCount]
    | top :: bot :: rest => exact absurd rfl (hne top bot rest)

/-- Settles O57: the windows are counted row by row, and in each pair of rows column by column. -/
theorem penalty2CountsEveryWindow : Obligations.Penalty2CountsEveryWindow := by
  rintro n mat ⟨rfl, hrow⟩
  rw [penalty2, blockCount_eq mat hrow, blocksOf]

/-! ## Rule 3 -/

theorem take_eq_iff_windowAt {pat line : List Bool} (hpat : pat.length = 11) (hline : 11 ≤ line.length) :
    line.take pat.length = pat ↔ windowAt pat (line.getD · false) 0 := by
  constructor
  · intro h k hk
    rw [← h]
    simp [hpat, hk]
  · intro h
    refine List.ext_getElem (by simpa [hpat] using hline) fun k _ hk => ?_
    simpa [hk, show k < line.length by omega] using h k (by omega)

/-- A line has the windows of R125: those that lie inside it. -/
theorem windowCount_eq {pat : List Bool} (hpat : pat.length = 11) (line : List Bool) :
    windowCount pat line
      = ∑ i ∈ Finset.range (line.length - 10), if windowAt pat (line.getD · false) i then 1 else 0 := by
  induction line with
  | nil => rfl
  | cons x xs ih =>
    rw [windowCount, ih]
    obtain hshort | hlong := Nat.lt_or_ge xs.length 10
    · have hne : (x :: xs).take pat.length ≠ pat := fun h => by
        have hlen := congrArg List.length h
        simp only [List.length_take, List.length_cons, hpat] at hlen
        omega
      rw [if_neg hne, List.length_cons, Nat.sub_eq_zero_of_le hshort.le, Nat.sub_eq_zero_of_le hshort]
      rfl
    · have hshift (i : Nat) : windowAt pat ((x :: xs).getD · false) (i + 1) ↔ windowAt pat (xs.getD · false) i := by
        simp [windowAt, Nat.add_right_comm i 1]
      rw [List.length_cons, Nat.sub_add_comm hlong, Finset.sum_range_succ', Nat.add_comm]
      simp only [hshift, take_eq_iff_windowAt hpat (show 11 ≤ (x :: xs).length by simp; omega)]

/-- Settles O58: a line's windows are counted from its start. -/
theorem penalty3CountsFinderWindows : Obligations.Penalty3CountsFinderWindows := by
  intro n mat h
  rw [penalty3, sum_matLines h]
  intro line hline
  rw [windowCount_eq rfl, windowCount_eq rfl, hline, windowsOfLine, Finset.sum_add_distrib]

/-! ## Rule 4 -/

theorem count_true_eq (row : List Bool) :
    row.count true = ∑ c ∈ Finset.range row.length, if row.getD c false then 1 else 0 := by
  rw [← sum_map_eq_sum_range (fun dark => if dark = true then 1 else 0)]
  induction row with
  | nil => rfl
  | cons x xs ih => cases x <;> simp [ih, add_comm]

theorem darkCount_eq {n : Nat} {mat : List (List Bool)} (h : square n mat) : darkCount mat = darkOf n mat := by
  obtain ⟨rfl, hrow⟩ := h
  rw [darkCount, sum_map_eq_sum_range _ [], darkOf]
  refine Finset.sum_congr rfl fun r hr => ?_
  have hmem : mat.getD r [] ∈ mat := by simp [Finset.mem_range.mp hr]
  rw [count_true_eq, hrow _ hmem]
  rfl

theorem penalty4_eq {n : Nat} {mat : List (List Bool)} (h : square n mat) :
    penalty4 mat = 10 * ((20 * (darkOf n mat : Int) - 10 * (n * n : Int)).natAbs / (n * n)) := by
  rw [penalty4, darkCount_eq h, h.1]
  push_cast
  rfl

/-- R126: the distance from 50 %, in steps of 5 %, is the quotient of two integers. -/
theorem abs_percent_div {n : Nat} (hn : 0 < n) (d : Nat) :
    |100 * (d : ℚ) / (n * n : ℚ) - 50| / 5
      = ((20 * (d : Int) - 10 * (n * n : Int)).natAbs : ℚ) / ((n * n : Nat) : ℚ) := by
  have hpos : (0 : ℚ) < n := by exact_mod_cast hn
  have hquot : 100 * (d : ℚ) / (n * n) - 50 = 5 * (20 * d - 10 * (n * n)) / (n * n) := by
    field_simp
    ring
  rw [hquot, abs_div, abs_mul, abs_of_pos (mul_pos hpos hpos), Nat.cast_natAbs]
  push_cast
  rw [abs_of_pos (by norm_num : (0 : ℚ) < 5)]
  ring

/-- Settles O59: the exact percentage gives the same floor, and twice a count is even. -/
theorem penalty4IsTheExactBalance : Obligations.Penalty4IsTheExactBalance := by
  refine fun n mat hn h => ⟨penalty4_eq h, ?_, fun hodd heven => ?_⟩
  · rw [penalty4_eq h, abs_percent_div hn, Rat.floor_natCast_div_natCast]
    push_cast
    rfl
  · have hsq : n * n % 2 = 1 := by rw [Nat.mul_mod, hodd]
    omega

/-! ## Bounds -/

theorem runPenalty_le (len : Nat) : runPenalty len ≤ len - 2 := by
  unfold runPenalty
  split <;> omega

/-- R123: the runs of a line add at most what one run of its length adds. -/
theorem sum_runsFrom_le (b : Bool) (k : Nat) (xs : List Bool) :
    ((runsFrom b k xs).map runPenalty).sum ≤ k + xs.length - 2 := by
  induction xs generalizing b k with
  | nil => simpa [runsFrom] using runPenalty_le k
  | cons x xs ih =>
    rw [runsFrom, List.length_cons]
    split
    · have hlonger := ih b (k + 1)
      omega
    · have hnext := ih x 1
      have hpast := runPenalty_le k
      simp only [List.map_cons, List.sum_cons]
      omega

theorem sum_runs_le (line : List Bool) : ((runs line).map runPenalty).sum ≤ line.length - 2 := by
  cases line with
  | nil => exact Nat.le_refl 0
  | cons x xs => simpa [runs, Nat.add_comm] using sum_runsFrom_le x 1 xs

theorem sum_range_ite_le (n : Nat) (p : Nat → Prop) [DecidablePred p] :
    (∑ i ∈ Finset.range n, if p i then 1 else 0) ≤ n := by
  simpa using Finset.card_filter_le (Finset.range n) p

/-- A count over an n × n table is at most n². -/
theorem sum_range_sum_range_ite_le (n : Nat) (p : Nat → Nat → Prop) [∀ r, DecidablePred (p r)] :
    (∑ r ∈ Finset.range n, ∑ c ∈ Finset.range n, if p r c then 1 else 0) ≤ n * n := by
  simpa using Finset.sum_le_card_nsmul (Finset.range n) _ n fun r _ => sum_range_ite_le n (p r)

section Bounds

variable {n : Nat} {mat : List (List Bool)} (h : square n mat)

include h

theorem penalty1_le : penalty1 mat ≤ 2 * n * (n - 2) :=
  sum_matLines_le h fun line hline => hline ▸ sum_runs_le line

theorem penalty2_le : penalty2 mat ≤ 3 * (n - 1) ^ 2 := by
  rw [penalty2CountsEveryWindow n mat h, sq]
  exact Nat.mul_le_mul_left 3 (sum_range_sum_range_ite_le (n - 1) (oneColour mat))

theorem penalty3_le : penalty3 mat ≤ 40 * 2 * (2 * n) * (n - 10) := by
  have hline (line : List Bool) (hlen : line.length = n) :
      windowCount patternA line + windowCount patternB line ≤ 2 * (n - 10) := by
    rw [windowCount_eq rfl, windowCount_eq rfl, hlen, two_mul]
    exact Nat.add_le_add (sum_range_ite_le _ _) (sum_range_ite_le _ _)
  calc penalty3 mat ≤ 40 * (2 * n * (2 * (n - 10))) := Nat.mul_le_mul_left 40 (sum_matLines_le h hline)
    _ = 40 * 2 * (2 * n) * (n - 10) := by ring

theorem penalty4_le : penalty4 mat ≤ 100 := by
  have hdark : darkOf n mat ≤ n * n := sum_range_sum_range_ite_le n fun r c => at2 mat r c = true
  have habs : (20 * (darkOf n mat : Int) - 10 * (n * n : Int)).natAbs ≤ 10 * (n * n) := by
    omega
  have hquot := Nat.div_le_of_le_mul (habs.trans_eq (Nat.mul_comm 10 (n * n)))
  rw [penalty4_eq h]
  omega

end Bounds

theorem side_of_configured {s : State} (h : s.version ≠ 0#8) : s.side = 17 + 4 * s.version.toNat := if_neg h

/-- Settles O60: each rule by its bound per line or per window, and the bounds at N = 177 add up. -/
theorem penaltiesAreBounded : Obligations.PenaltiesAreBounded := by
  refine ⟨fun s hs => ?_, fun n mat h hn => ?_⟩
  · have hside : 21 ≤ s.side := by
      have hpos := one_le_toNat_of_ne_zero hs
      rw [side_of_configured hs]
      omega
    exact Nat.mul_le_mul hside hside
  · have h1 := penalty1_le h
    have h2 := penalty2_le h
    have h3 := penalty3_le h
    have h4 := penalty4_le h
    have hn1 : 2 * n * (n - 2) ≤ 2 * 177 * (177 - 2) := by gcongr
    have hn2 : 3 * (n - 1) ^ 2 ≤ 3 * (177 - 1) ^ 2 := by gcongr
    have hn3 : 40 * 2 * (2 * n) * (n - 10) ≤ 40 * 2 * (2 * 177) * (177 - 10) := by gcongr
    exact ⟨h1, h2, h3, h4, by omega⟩

end Sys2Proof.Machine
end

section
/-! PROOFS. The commands PEN_SCORE, MASK_EVAL and MASK_APPLY (42_mask_penalty.md R128 to R135): the scores each leaves,
the selection, and the flipped cells. -/

namespace Sys2Proof.Machine

/-! ## Result codes -/

theorem needsVersion_of_configured {s : State} (h : s.version ≠ 0#8) : needsVersion s = .ok := by
  simp [needsVersion, codeIf, State.verReady, h]

theorem needsVersion_of_unconfigured {s : State} (h : s.version = 0#8) : needsVersion s = .notConfigured := by
  simp [needsVersion, codeIf, State.verReady, h]

/-! ## Scores -/

/-- `SCORE[m]` and `PEN[m]` hold what candidate m of the given cells scores (R128). -/
def Scored (cells : List (List QrCell)) (m : MaskId) (s : State) : Prop :=
  scoreAt s.score m = BitVec.ofNat 32 (totalPenalty (candidate m cells)) ∧
    ∀ k : BitVec 2, penAt s.pen m k = (penaltyWords (candidate m cells))[k.toNat]'k.isLt

theorem scored_scoreInto_same (cells : List (List QrCell)) (m : MaskId) (s : State) :
    Scored cells m (scoreInto cells m s) :=
  ⟨scoreAt_set_same .., penAt_set_same _ _ _⟩

theorem scoreInto_other (cells : List (List QrCell)) {m k : MaskId} (h : k ≠ m) (s : State) :
    scoreAt (scoreInto cells m s).score k = scoreAt s.score k ∧
      ∀ i, penAt (scoreInto cells m s).pen k i = penAt s.pen k i :=
  ⟨scoreAt_set_other _ h _, penAt_set_other _ h _⟩

/-- Scoring another candidate of the same cells keeps a score. -/
theorem Scored.after_scoreInto {cells : List (List QrCell)} {k : MaskId} {s : State} (h : Scored cells k s)
    (m : MaskId) : Scored cells k (scoreInto cells m s) := by
  by_cases hk : k = m
  · subst hk
    exact scored_scoreInto_same cells k s
  · obtain ⟨hscore, hpen⟩ := scoreInto_other cells hk s
    exact ⟨hscore.trans h.1, fun i => (hpen i).trans (h.2 i)⟩

theorem Scored.after_foldl_scoreInto {cells : List (List QrCell)} {k : MaskId} {s : State} (h : Scored cells k s)
    (ms : List MaskId) : Scored cells k (ms.foldl (fun t m => scoreInto cells m t) s) := by
  induction ms generalizing s with
  | nil => exact h
  | cons m ms ih => exact ih (h.after_scoreInto m)

/-- Every listed candidate is scored, whatever the order. -/
theorem scored_foldl_scoreInto (cells : List (List QrCell)) {k : MaskId} {ms : List MaskId} (h : k ∈ ms) (s : State) :
    Scored cells k (ms.foldl (fun t m => scoreInto cells m t) s) := by
  induction ms generalizing s with
  | nil => simp at h
  | cons m ms ih =>
    obtain rfl | h := List.mem_cons.mp h
    · exact (scored_scoreInto_same cells k s).after_foldl_scoreInto ms
    · exact ih h _

theorem mem_allMasks (m : MaskId) : m ∈ allMasks := by
  revert m
  decide

theorem scored_scoreAll (s : State) (m : MaskId) : Scored s.active m (scoreAll s) :=
  scored_foldl_scoreInto s.active (mem_allMasks m) s

/-- The four registers and the score of a scored candidate, by rule (R36, R128). -/
theorem Scored.registers {cells : List (List QrCell)} {m : MaskId} {s : State} (h : Scored cells m s) :
    penAt s.pen m 0#2 = BitVec.ofNat 32 (penalty1 (candidate m cells))
      ∧ penAt s.pen m 1#2 = BitVec.ofNat 32 (penalty2 (candidate m cells))
      ∧ penAt s.pen m 2#2 = BitVec.ofNat 32 (penalty3 (candidate m cells))
      ∧ penAt s.pen m 3#2 = BitVec.ofNat 32 (penalty4 (candidate m cells))
      ∧ scoreAt s.score m = BitVec.ofNat 32 (penalty1 (candidate m cells) + penalty2 (candidate m cells)
          + penalty3 (candidate m cells) + penalty4 (candidate m cells)) :=
  ⟨h.2 0#2, h.2 1#2, h.2 2#2, h.2 3#2, h.1⟩

/-- Two states in which a candidate of the same cells is scored hold the same score and penalties for it. -/
theorem Scored.agree {cells : List (List QrCell)} {m : MaskId} {s t : State} (hs : Scored cells m s)
    (ht : Scored cells m t) : scoreAt s.score m = scoreAt t.score m ∧ ∀ k, penAt s.pen m k = penAt t.pen m k :=
  ⟨hs.1.trans ht.1.symm, fun k => (hs.2 k).trans (ht.2 k).symm⟩

/-! ## Register arrays, by mask id -/

theorem score_ext {a b : Vector Word 8} (h : ∀ m, scoreAt a m = scoreAt b m) : a = b := by
  refine Vector.ext fun i hi => ?_
  simpa [scoreAt, Nat.mod_eq_of_lt hi] using h (BitVec.ofNat 3 i)

theorem pen_ext {a b : Vector (Vector Word 4) 8} (h : ∀ m k, penAt a m k = penAt b m k) : a = b := by
  refine Vector.ext fun i hi => Vector.ext fun j hj => ?_
  simpa [penAt, Nat.mod_eq_of_lt hi, Nat.mod_eq_of_lt hj] using h (BitVec.ofNat 3 i) (BitVec.ofNat 2 j)

/-! ## The selection -/

theorem allMasks_rise : allMasks.Pairwise fun a b => a.toNat < b.toNat := by decide

/-- Every id smaller than that of a mask comes before it in the order of scoring. -/
theorem mem_before_of_lt {before after : List MaskId} {m k : MaskId} (hsplit : allMasks = before ++ m :: after)
    (hlt : k.toNat < m.toNat) : k ∈ before := by
  have hrise := hsplit ▸ allMasks_rise
  obtain ⟨-, hfrom, -⟩ := List.pairwise_append.mp hrise
  have hafter (ha : k ∈ after) : m.toNat < k.toNat := (List.pairwise_cons.mp hfrom).1 k ha
  obtain hb | hk := List.mem_append.mp (hsplit ▸ mem_allMasks k)
  · exact hb
  · obtain rfl | ha := List.mem_cons.mp hk
    · exact absurd hlt (Nat.lt_irrefl _)
    · exact absurd hlt (hafter ha).not_gt

/-- What `bestMask` looks for: no stored score is less than that of `m` (R132). -/
def isLeast (score : Vector Word 8) (m : MaskId) : Bool :=
  allMasks.all fun k => decide ((scoreAt score m).toNat ≤ (scoreAt score k).toNat)

theorem isLeast_iff {score : Vector Word 8} {m : MaskId} :
    isLeast score m = true ↔ ∀ k, (scoreAt score m).toNat ≤ (scoreAt score k).toNat := by
  simp [isLeast, mem_allMasks]

theorem find?_isLeast (score : Vector Word 8) : allMasks.find? (isLeast score) = some (bestMask score) := by
  obtain ⟨least, hleast⟩ := Finite.exists_min fun m : MaskId => (scoreAt score m).toNat
  have hsome : (allMasks.find? (isLeast score)).isSome :=
    List.find?_isSome.mpr ⟨least, mem_allMasks least, isLeast_iff.mpr hleast⟩
  obtain ⟨m, hm⟩ := Option.isSome_iff_exists.mp hsome
  have hbest : bestMask score = (allMasks.find? (isLeast score)).getD 0#3 := rfl
  rw [hbest, hm, Option.getD_some]

/-- R131, R132: the selected mask has the least score, and every smaller id a larger one. -/
theorem bestMask_least (score : Vector Word 8) :
    (∀ k, (scoreAt score (bestMask score)).toNat ≤ (scoreAt score k).toNat) ∧
      ∀ k, k.toNat < (bestMask score).toNat → (scoreAt score (bestMask score)).toNat < (scoreAt score k).toNat := by
  obtain ⟨hfound, before, after, hsplit, hbefore⟩ := List.find?_eq_some_iff_append.mp (find?_isLeast score)
  have hle := isLeast_iff.mp hfound
  refine ⟨hle, fun k hk => ?_⟩
  have hnot : ¬ ∀ j, (scoreAt score k).toNat ≤ (scoreAt score j).toNat := by
    rw [← isLeast_iff]
    simpa using hbefore k (mem_before_of_lt hsplit hk)
  obtain ⟨j, hj⟩ := not_forall.mp hnot
  exact (hle j).trans_lt (not_le.mp hj)

/-! ## PEN_SCORE and MASK_EVAL -/

/-- R164: a command whose effect is to write the scores and the selection completes, and leaves all else. -/
theorem exec_scores {i : Instr} {s : State} {score : Vector Word 8} {pen : Vector (Vector Word 4) 8} {mask : MaskId}
    {valid : Bool} {best : Word} (hcode : codeOf i s = .ok)
    (heffect : effectOf i s
      = { s with score := score, pen := pen, selMask := mask, selValid := valid, bestScore := best }) :
    ∃ t, exec i s = .next t ∧ Completed .ok i.opcode s t ∧ t.score = score ∧ t.pen = pen ∧ t.selMask = mask
      ∧ t.selValid = valid ∧ t.bestScore = best ∧ SameControl s t ∧ SameResults s t ∧ SameEncoder s t
      ∧ t.version = s.version ∧ SameCells s t ∧ SameAgents s t := by
  refine ⟨_, exec_ok hcode, ?_⟩
  rw [heffect]
  simp [Completed, SameControl, SameResults, SameEncoder, SameCells, SameAgents, State.byteAt]

/-- PEN_SCORE with a version set (R130). -/
theorem exec_penScore {s : State} (h : s.version ≠ 0#8) (m : MaskId) :
    ∃ t, exec (.penScore m) s = .next t ∧ Completed .ok 0x30#8 s t ∧ t.score = (penScore m s).score
      ∧ t.pen = (penScore m s).pen ∧ t.selMask = s.selMask ∧ t.selValid = s.selValid ∧ t.bestScore = s.bestScore
      ∧ SameControl s t ∧ SameResults s t ∧ SameEncoder s t ∧ t.version = s.version ∧ SameCells s t
      ∧ SameAgents s t :=
  exec_scores (i := .penScore m) (needsVersion_of_configured h) rfl

/-- MASK_EVAL with a version set (R131). -/
theorem exec_maskEval {s : State} (h : s.version ≠ 0#8) :
    ∃ t, exec .maskEval s = .next t ∧ Completed .ok 0x31#8 s t ∧ t.score = (scoreAll s).score
      ∧ t.pen = (scoreAll s).pen ∧ t.selMask = bestMask (scoreAll s).score ∧ t.selValid = true
      ∧ t.bestScore = scoreAt (scoreAll s).score (bestMask (scoreAll s).score)
      ∧ SameControl s t ∧ SameResults s t ∧ SameEncoder s t ∧ t.version = s.version ∧ SameCells s t
      ∧ SameAgents s t := by
  refine exec_scores (i := .maskEval) (needsVersion_of_configured h) ?_
  obtain ⟨score, pen, hframe⟩ := scoreAll_frame s
  rw [effectOf, maskEval, hframe]
  rfl

/-- The scores do not depend on anything else of the state that holds them. -/
theorem Scored.of_registers {cells : List (List QrCell)} {m : MaskId} {s t : State} (h : Scored cells m s)
    (hscore : t.score = s.score) (hpen : t.pen = s.pen) : Scored cells m t := by
  rwa [Scored, hscore, hpen]

theorem candidate_of_functionCells {s : State}
    (h : ∀ r c, r < s.side → c < s.side → (s.cellAt r c).func = true) (k m : MaskId) :
    candidate k s.active = candidate m s.active := by
  rw [candidate_active, candidate_active]
  refine List.map_congr_left fun r hr => List.map_congr_left fun c hc => ?_
  simp [maskedDark, h r c (List.mem_range.mp hr) (List.mem_range.mp hc)]

/-- Settles O8: the row of PEN_SCORE admits a mask id and B = 0 only, and its effect is to score one candidate. -/
theorem penScoreScoresOneCandidate : Obligations.PenScoreScoresOneCandidate := by
  refine ⟨fun m => by simp [encode, commandWord, Instr.opcode],
    fun m s => ⟨codesOf_of_row (by decide) ?_ (by simp [unconfiguredFor]), fun h => ?_,
      fun h => exec_onlyCompleted (i := .penScore m) (needsVersion_of_unconfigured h) (by decide)⟩⟩
  · intro w
    simp only [argsInRange, BitVec.reduceEq, or_self, if_false, if_true, true_or, Bool.and_eq_false_iff,
      decide_eq_false_iff_not, not_le]
    tauto
  · obtain ⟨t, he, hdone, hscore, hpen, hmask, hvalid, hbest, hctrl, hres, henc, hver, hcells, hagents⟩ :=
      exec_penScore h m
    have hscored : Scored s.active m t := (scored_scoreInto_same s.active m s).of_registers hscore hpen
    obtain ⟨h1, h2, h3, h4, hsum⟩ := hscored.registers
    refine ⟨t, he, hdone, h1, h2, h3, h4, hsum, fun k hk => ?_, fun hf k => candidate_of_functionCells hf k m, hctrl,
      hres, henc, hver, ⟨hmask, hvalid, hbest⟩, hcells, hagents⟩
    rw [hscore, hpen]
    exact scoreInto_other s.active hk s

/-- Settles O9: the row of MASK_EVAL admits A = B = 0 only, and its effect is to score all and select the best. -/
theorem maskEvalSelectsTheLeastScore : Obligations.MaskEvalSelectsTheLeastScore := by
  refine ⟨by decide, fun s => ⟨codesOf_of_row (by decide) ?_ (by simp [unconfiguredFor]), fun h => ?_,
    fun h => exec_onlyCompleted (i := .maskEval) (needsVersion_of_unconfigured h) (by decide)⟩⟩
  · intro w
    simp only [argsInRange, BitVec.reduceEq, or_true, if_true, Bool.and_eq_false_iff, decide_eq_false_iff_not]
    tauto
  · obtain ⟨t, he, hdone, hscore, hpen, hmask, hvalid, hbest, hframe⟩ := exec_maskEval h
    obtain ⟨hle, hlt⟩ := bestMask_least (scoreAll s).score
    refine ⟨t, he, hdone, fun m => ((scored_scoreAll s m).of_registers hscore hpen).registers, hvalid, ?_, ?_, ?_,
      hframe⟩
    all_goals rw [hmask, hscore]
    · exact hbest
    · exact hle
    · exact hlt

/-- The active region is a function of its side and its cells. -/
theorem active_congr {s t : State} (hv : s.version = t.version)
    (h : ∀ r c, r < s.side → c < s.side → s.cellAt r c = t.cellAt r c) : s.active = t.active := by
  have hside : t.side = s.side := by simp only [State.side, hv]
  rw [State.active, State.active, hside]
  exact List.map_congr_left fun r hr => List.map_congr_left fun c hc =>
    h r c (List.mem_range.mp hr) (List.mem_range.mp hc)

/-- Settles O45: the scores are those of the active region, and the selection is a function of the scores. -/
theorem scoresDependOnTheActiveRegion : Obligations.ScoresDependOnTheActiveRegion := by
  intro s₁ s₂ hv hne hcells
  have hactive := active_congr hv hcells
  refine ⟨fun m => ?_, ?_⟩
  · obtain ⟨t₁, he₁, -, hs₁, hp₁, -⟩ := exec_penScore hne m
    obtain ⟨t₂, he₂, -, hs₂, hp₂, -⟩ := exec_penScore (hv ▸ hne) m
    have h₁ := (scored_scoreInto_same s₁.active m s₁).of_registers hs₁ hp₁
    have h₂ := (scored_scoreInto_same s₂.active m s₂).of_registers hs₂ hp₂
    exact ⟨t₁, t₂, he₁, he₂, h₁.agree (hactive ▸ h₂)⟩
  · obtain ⟨t₁, he₁, -, hs₁, hp₁, hm₁, hv₁, hb₁, -⟩ := exec_maskEval hne
    obtain ⟨t₂, he₂, -, hs₂, hp₂, hm₂, hv₂, hb₂, -⟩ := exec_maskEval (hv ▸ hne)
    have hagree (m : MaskId) := (scored_scoreAll s₂ m).agree (hactive ▸ scored_scoreAll s₁ m)
    have hscore : (scoreAll s₂).score = (scoreAll s₁).score := score_ext fun m => (hagree m).1
    have hpen : (scoreAll s₂).pen = (scoreAll s₁).pen := pen_ext fun m => (hagree m).2
    refine ⟨t₁, t₂, he₁, he₂, ⟨?_, ?_⟩, ?_, ?_, ?_⟩
    · rw [hs₁, hs₂, hscore]
    · rw [hp₁, hp₂, hpen]
    · rw [hm₁, hm₂, hscore]
    · rw [hv₁, hv₂]
    · rw [hb₁, hb₂, hscore]

end Sys2Proof.Machine
end

section
/-! PROOFS. The command MASK_APPLY (42_mask_penalty.md R133): what it leaves in each cell, and that a second time
restores the matrix. -/

namespace Sys2Proof.Machine

/-- `MASK_APPLY m` flips the cell: a data cell of the active region where the formula is true. -/
def Flips (m : MaskId) (s : State) (r c : Nat) : Prop :=
  r < s.side ∧ c < s.side ∧ (s.cellAt r c).func = false ∧ maskFn m r c = true

theorem State.Inv.side_le {s : State} (h : s.Inv) : s.side ≤ 256 := (side_le_nmax h.version_le).trans h.nmax_le

theorem byteAt_maskApply_of_not_flips {m : MaskId} {s : State} {addr : Nat}
    (h : ∀ r c, Flips m s r c → addr ≠ cellAddr r c) : (maskApply m s).byteAt addr = s.byteAt addr :=
  byteAt_maskApply_other m s addr fun r c hr hc hf hk => h r c ⟨hr, hc, hf, hk⟩

/-- R133: `MASK_APPLY` leaves candidate m in the active region, and every FUNC bit. -/
theorem cellAt_maskApply {m : MaskId} {s : State} (hs : s.side ≤ 256) {r c : Nat} (hr : r < s.side) (hc : c < s.side) :
    (maskApply m s).cellAt r c = { s.cellAt r c with dark := maskedDark m r c (s.cellAt r c) } := by
  by_cases h : (s.cellAt r c).func = false ∧ maskFn m r c = true
  · rw [cellAt_maskApply_flipped m s hs hr hc h.1 h.2]
    simp [maskedDark, h]
  · have hkept : (maskApply m s).cellAt r c = s.cellAt r c := by
      refine congrArg QrCell.ofByte (byteAt_maskApply_of_not_flips ?_)
      rintro r' c' ⟨-, hc', hf, hk⟩ haddr
      obtain ⟨rfl, rfl⟩ := cellAddr_inj (by omega) (by omega) haddr
      exact h ⟨hf, hk⟩
    have hstays : (!(s.cellAt r c).func && maskFn m r c) = false := by
      simpa using h
    rw [hkept, maskedDark, hstays, Bool.xor_false]

theorem maskedDark_maskedDark (m : MaskId) (r c : Nat) (cell : QrCell) :
    maskedDark m r c { cell with dark := maskedDark m r c cell } = cell.dark := by
  simp [maskedDark]

/-- FUNC and DARK are all that a byte below 4 holds. -/
theorem eq_of_ofByte_eq {a b : Byte} (ha : a.toNat < 4) (hb : b.toNat < 4) (h : QrCell.ofByte a = QrCell.ofByte b) :
    a = b := by
  rw [← toByte_ofByte ha, h, toByte_ofByte hb]

theorem flips_maskApply_iff {m : MaskId} {s : State} {r c : Nat} : Flips m (maskApply m s) r c ↔ Flips m s r c := by
  rw [Flips, Flips, func_maskApply]
  rfl

/-- R133: a second `MASK_APPLY` with the same mask restores every byte of the matrix. -/
theorem sameCells_maskApply_maskApply {s : State} (h : s.Inv) (m : MaskId) :
    SameCells s (maskApply m (maskApply m s)) := by
  intro addr
  by_cases hflip : ∃ r c, Flips m s r c ∧ addr = cellAddr r c
  · obtain ⟨r, c, ⟨hr, hc, -⟩, rfl⟩ := hflip
    refine eq_of_ofByte_eq (byteAt_lt ((h.maskApply m).maskApply m).mem_wf _) (byteAt_lt h.mem_wf _) ?_
    change (maskApply m (maskApply m s)).cellAt r c = s.cellAt r c
    rw [cellAt_maskApply (h.maskApply m).side_le hr hc, cellAt_maskApply h.side_le hr hc, maskedDark_maskedDark]
  · have hkept (r c : Nat) (hf : Flips m s r c) : addr ≠ cellAddr r c := fun ha => hflip ⟨r, c, hf, ha⟩
    rw [byteAt_maskApply_of_not_flips fun r c hf => hkept r c (flips_maskApply_iff.mp hf),
      byteAt_maskApply_of_not_flips hkept]

/-- The flips do not depend on the completion record. -/
theorem maskApply_complete (m : MaskId) (code : ResultCode) (op : Byte) (s : State) :
    maskApply m (complete code op s) = complete code op (maskApply m s) := rfl

/-- MASK_APPLY with a version set: what it leaves besides the cells (R133, R164). -/
theorem exec_maskApply {s : State} (h : s.version ≠ 0#8) (m : MaskId) :
    ∃ t, exec (.maskApply m) s = .next t ∧ t = complete .ok 0x32#8 (maskApply m s) ∧ Completed .ok 0x32#8 s t
      ∧ t.selValid = false ∧ t.selMask = s.selMask ∧ t.bestScore = s.bestScore ∧ SameScores s t ∧ SameControl s t
      ∧ SameResults s t ∧ SameEncoder s t ∧ t.version = s.version ∧ SameAgents s t := by
  refine ⟨_, exec_ok (i := .maskApply m) (needsVersion_of_configured h), rfl, ?_⟩
  simp [effectOf, Instr.opcode, Completed, SameScores, SameControl, SameResults, SameEncoder, SameAgents]

/-- Settles O10: the row of MASK_APPLY admits a mask id and B = 0 only, and its effect is to flip the data cells where
the formula is true, which a second time undoes. -/
theorem maskApplyWritesTheCandidate : Obligations.MaskApplyWritesTheCandidate := by
  refine ⟨fun m => by simp [encode, commandWord, Instr.opcode],
    fun m s hinv => ⟨codesOf_of_row (by decide) ?_ (by simp [unconfiguredFor]), fun h => ?_,
      fun h => exec_onlyCompleted (i := .maskApply m) (needsVersion_of_unconfigured h) (by decide)⟩⟩
  · intro w
    simp only [argsInRange, BitVec.reduceEq, or_self, if_false, if_true, or_true, Bool.and_eq_false_iff,
      decide_eq_false_iff_not, not_le]
    tauto
  · obtain ⟨t, he, ht, hdone, hvalid, hmask, hbest, hscores, hctrl, hres, henc, hver, hagents⟩ := exec_maskApply h m
    have hbyte (addr : Nat) : t.byteAt addr = (maskApply m s).byteAt addr := by
      rw [ht]
      rfl
    have hcell (r c : Nat) : t.cellAt r c = (maskApply m s).cellAt r c := congrArg QrCell.ofByte (hbyte _)
    obtain ⟨u, hu, hagain, -⟩ := exec_maskApply (hver ▸ h) m
    refine ⟨t, he, hdone, fun r c hr hc => ?_, fun addr haddr => ?_, hvalid, hmask, hbest, hscores, hctrl, hres, henc,
      hver, hagents, u, hu, ?_⟩
    · rw [hcell, cellAt_maskApply hinv.side_le hr hc]
      exact ⟨rfl, rfl⟩
    · rw [hbyte, byteAt_maskApply_other m s addr haddr]
    · rw [hagain, ht, maskApply_complete]
      exact sameCells_maskApply_maskApply hinv m

end Sys2Proof.Machine
end

section
/-! PROOFS. The commands BCH_FORMAT and BCH_VERSION (43_bch.md R150 to R156). `bch_rem` is long division over GF(2):
what it cancels from its argument is a multiple of the generator, so a data word with its remainder appended is one. -/

namespace Sys2Proof.Machine

open Sys2Proof.Reference

/-! ## Multiples of a generator -/

theorem gf2Product_succ (w q g : Nat) :
    gf2Product (w + 1) q g = if q.testBit w then gf2Product w q g ^^^ (g <<< w) else gf2Product w q g := by
  simp [gf2Product, List.range_succ]

/-- The product depends on the coefficients below its bound. -/
theorem gf2Product_congr {w p q : Nat} (h : ∀ i < w, p.testBit i = q.testBit i) (g : Nat) :
    gf2Product w p g = gf2Product w q g :=
  List.foldl_ext _ _ _ fun acc i hi => by rw [h i (List.mem_range.mp hi)]

/-- A multiple that needs fewer coefficients. -/
theorem gf2Product_succ_of_lt {w q : Nat} (h : q < 2 ^ w) (g : Nat) : gf2Product (w + 1) q g = gf2Product w q g := by
  simp [gf2Product_succ, Nat.testBit_lt_two_pow h]

/-- A new leading coefficient adds the shifted generator. -/
theorem gf2Product_succ_two_pow_add {w q : Nat} (h : q < 2 ^ w) (g : Nat) :
    gf2Product (w + 1) (2 ^ w + q) g = gf2Product w q g ^^^ (g <<< w) := by
  rw [gf2Product_succ, Nat.testBit_two_pow_add_eq, Nat.testBit_lt_two_pow h, Bool.not_false, if_pos rfl,
    gf2Product_congr fun i hi => Nat.testBit_two_pow_add_gt hi q]

/-! ## The loop of `bch_rem` -/

/-- R151: the loop takes a multiple of the generator away. -/
theorem exists_xor_bchReduce (g k w x : Nat) : ∃ q < 2 ^ w, x ^^^ bchReduce g k w x = gf2Product w q g := by
  induction w generalizing x with
  | zero => exact ⟨0, Nat.one_pos, Nat.xor_self x⟩
  | succ w ih =>
    rw [bchReduce]
    split
    · obtain ⟨q, hq, h⟩ := ih (x ^^^ g <<< w)
      refine ⟨2 ^ w + q, by omega, ?_⟩
      rw [gf2Product_succ_two_pow_add hq, ← h, Nat.xor_right_comm, Nat.xor_xor_cancel_right]
    · obtain ⟨q, hq, h⟩ := ih x
      exact ⟨q, by omega, h.trans (gf2Product_succ_of_lt hq g).symm⟩

/-- A number whose highest admitted bit is clear is below that bit. -/
theorem lt_two_pow_of_testBit_false {n x : Nat} (h : x < 2 ^ (n + 1)) (hbit : x.testBit n = false) : x < 2 ^ n := by
  by_contra hge
  rw [Nat.testBit_of_two_pow_le_and_two_pow_add_one_gt (Nat.le_of_not_lt hge) h] at hbit
  cases hbit

/-- R151: with a generator of degree k the loop clears every bit from k on, the highest first. -/
theorem bchReduce_lt {g k : Nat} (hlead : g.testBit k = true) (hg : g < 2 ^ (k + 1)) {w x : Nat}
    (hx : x < 2 ^ (k + w)) : bchReduce g k w x < 2 ^ k := by
  induction w generalizing x with
  | zero => exact hx
  | succ w ih =>
    have hshift : g <<< w < 2 ^ (k + w + 1) := by
      rw [Nat.shiftLeft_eq, Nat.add_right_comm, Nat.pow_add]
      exact Nat.mul_lt_mul_of_pos_right hg (Nat.two_pow_pos w)
    rw [bchReduce]
    split
    · rename_i hbit
      exact ih (lt_two_pow_of_testBit_false (Nat.xor_lt_two_pow hx hshift) (by simp [hbit, hlead]))
    · rename_i hbit
      exact ih (lt_two_pow_of_testBit_false hx (by simpa using hbit))

/-! ## A data word with its remainder appended -/

theorem bchRem_lt (v w g k : Nat) : bchRem v w g k < 2 ^ k := Nat.mod_lt _ (Nat.two_pow_pos k)

/-- The data bits stand above the remainder (R150). -/
theorem shiftLeft_or_bchRem (v w g k : Nat) : v <<< k ||| bchRem v w g k = v * 2 ^ k + bchRem v w g k := by
  rw [← Nat.shiftLeft_add_eq_or_of_lt (bchRem_lt ..), Nat.shiftLeft_eq]

theorem shiftLeft_or_eq_xor {k r : Nat} (h : r < 2 ^ k) (v : Nat) : v <<< k ||| r = v <<< k ^^^ r := by
  apply Nat.eq_of_testBit_eq
  intro i
  by_cases hi : i < k
  · simp [hi.not_ge]
  · simp [Nat.testBit_lt_two_pow (h.trans_le (Nat.pow_le_pow_right Nat.two_pos (Nat.le_of_not_lt hi)))]

/-- R155: a data word with its remainder appended is a multiple of the generator. -/
theorem shiftLeft_or_bchRem_eq_gf2Product {g k v w : Nat} (hlead : g.testBit k = true) (hg : g < 2 ^ (k + 1))
    (hv : v < 2 ^ w) :
    ∃ q < 2 ^ w, v <<< k ||| bchRem v w g k = gf2Product w q g := by
  have hx : v <<< k < 2 ^ (k + w) := by
    rw [Nat.shiftLeft_eq, Nat.mul_comm, Nat.pow_add]
    exact Nat.mul_lt_mul_of_pos_left hv (Nat.two_pow_pos k)
  have hr := bchReduce_lt hlead hg hx
  rw [bchRem, Nat.mod_eq_of_lt hr, shiftLeft_or_eq_xor hr]
  exact exists_xor_bchReduce ..

/-! ## The two words -/

/-- R152: the level code and the mask id, one after the other. -/
theorem formatData_eq_append (e : BitVec 2) (m : MaskId) : formatData e m = (e ++ m).toNat := by
  rw [BitVec.toNat_append, ← Nat.shiftLeft_add_eq_or_of_lt m.isLt, Nat.shiftLeft_eq]
  rfl

theorem formatRaw_eq_gf2Product (e : BitVec 2) (m : MaskId) : ∃ q < 2 ^ 5, formatRaw e m = gf2Product 5 q 0x537 :=
  shiftLeft_or_bchRem_eq_gf2Product (g := 0x537) rfl (by decide) (formatData_eq_append e m ▸ (e ++ m).isLt)

theorem versionWord_eq_gf2Product (v : BitVec 6) : ∃ q < 2 ^ 6, versionWord v = gf2Product 6 q 0x1F25 :=
  shiftLeft_or_bchRem_eq_gf2Product (g := 0x1F25) rfl (by decide) v.isLt

/-- R155: the format mask is no multiple of G15. -/
theorem formatMask_ne_gf2Product : ∀ q < 2 ^ 5, formatMask ≠ gf2Product 5 q 0x537 := by decide

theorem formatRaw_eq_add (e : BitVec 2) (m : MaskId) :
    formatRaw e m = (e ++ m).toNat * 2 ^ 10 + bchRem (e ++ m).toNat 5 0x537 10 := by
  rw [formatRaw, shiftLeft_or_bchRem, formatData_eq_append]
  rfl

theorem versionWord_eq_add (v : BitVec 6) : versionWord v = v.toNat * 2 ^ 12 + bchRem v.toNat 6 0x1F25 12 :=
  shiftLeft_or_bchRem ..

/-- The format word has 15 bits and fits its register. -/
theorem toNat_ofNat_formatRaw (e : BitVec 2) (m : MaskId) :
    (BitVec.ofNat 32 (formatRaw e m)).toNat = formatRaw e m := by
  have hdata := (e ++ m).isLt
  have hrem := bchRem_lt (e ++ m).toNat 5 0x537 10
  rw [BitVec.toNat_ofNat, formatRaw_eq_add]
  omega

/-- The version word has 18 bits and fits its register. -/
theorem toNat_ofNat_versionWord (v : BitVec 6) : (BitVec.ofNat 32 (versionWord v)).toNat = versionWord v := by
  have hdata := v.isLt
  have hrem := bchRem_lt v.toNat 6 0x1F25 12
  rw [BitVec.toNat_ofNat, versionWord_eq_add]
  omega

/-- R152: no format word is 0, since the mask is no multiple of the generator and the unmasked word is one. -/
theorem masked_formatRaw_ne_zero (e : BitVec 2) (m : MaskId) :
    BitVec.ofNat 32 (formatRaw e m ^^^ formatMask) ≠ 0#32 := by
  intro h
  rw [BitVec.ofNat_xor, BitVec.xor_eq_zero_iff, ← BitVec.toNat_inj, toNat_ofNat_formatRaw] at h
  obtain ⟨q, hq, hmul⟩ := formatRaw_eq_gf2Product e m
  exact formatMask_ne_gf2Product q hq (h.symm.trans hmul)

/-! ## The commands -/

/-- Settles O11: the row of BCH_FORMAT bounds A by 3 and B by 7, and its effect is to write the two format words. -/
theorem bchFormatWritesTheFormatWord : Obligations.BchFormatWritesTheFormatWord := by
  refine ⟨fun e m => by simp [encode, commandWord, Instr.opcode],
    fun e m s => ⟨codesOf_of_row (by decide) ?_ (by simp [unconfiguredFor]), ?_⟩⟩
  · intro w
    simp only [argsInRange, BitVec.reduceEq, or_self, if_false, if_true, Bool.and_eq_false_iff,
      decide_eq_false_iff_not, not_le]
    tauto
  · obtain ⟨t, he, hdone, hres, haux, hframe⟩ := exec_setResult (i := .bchFormat e m) (s := s) rfl rfl
    refine ⟨t, he, hdone, ?_, ?_, hres ▸ masked_formatRaw_ne_zero e m, ?_, ?_, ?_, hframe⟩
    · rw [haux, toNat_ofNat_formatRaw, formatRaw_eq_add]
    · rw [hres, haux, BitVec.ofNat_xor]
      rfl
    all_goals
      rintro rfl rfl
      rw [hres, haux]
      decide

/-- Settles O12: the row of BCH_VERSION bounds A by 63 and admits B = 0 only, and its effect is to write the version
word twice. -/
theorem bchVersionWritesTheVersionWord : Obligations.BchVersionWritesTheVersionWord := by
  refine ⟨fun v => by simp [encode, commandWord, Instr.opcode],
    fun v s => ⟨codesOf_of_row (by decide) ?_ (by simp [unconfiguredFor]), ?_⟩⟩
  · intro w
    simp only [argsInRange, BitVec.reduceEq, or_self, if_false, Bool.and_eq_false_iff, decide_eq_false_iff_not, not_le]
    tauto
  · obtain ⟨t, he, hdone, hres, haux, hframe⟩ := exec_setResult (i := .bchVersion v) (s := s) rfl rfl
    refine ⟨t, he, hdone, ?_, haux.trans hres.symm, ?_, ?_, ?_, hframe⟩
    · rw [hres, toNat_ofNat_versionWord, versionWord_eq_add]
    all_goals
      rintro rfl
      rw [hres]
      decide

/-- Settles O53: both words are data with their remainder appended; the masked word of e = m = 0 is the mask. -/
theorem bchWordsAreMultiples : Obligations.BchWordsAreMultiples := by
  refine ⟨fun e m s => ?_, fun v s => ?_, fun s => ?_⟩
  · obtain ⟨t, he, -, -, haux, -⟩ := exec_setResult (i := .bchFormat e m) (s := s) rfl rfl
    refine ⟨t, he, ?_⟩
    rw [haux, toNat_ofNat_formatRaw]
    exact formatRaw_eq_gf2Product e m
  · obtain ⟨t, he, -, hres, -⟩ := exec_setResult (i := .bchVersion v) (s := s) rfl rfl
    refine ⟨t, he, ?_⟩
    rw [hres, toNat_ofNat_versionWord]
    exact versionWord_eq_gf2Product v
  · obtain ⟨t, he, -, hres, -⟩ := exec_setResult (i := .bchFormat 0#2 0#3) (s := s) rfl rfl
    refine ⟨t, he, ?_⟩
    rw [hres]
    exact formatMask_ne_gf2Product

end Sys2Proof.Machine
end

section
/-! PROOFS. The life of a command word (44_control.md R160 to R163): its acceptance, the step that executes it and its
completion record. -/

namespace Sys2Proof.Machine

/-! ## Issue -/

/-- R221: a busy block refuses a word written to CMD. -/
theorem busWrite_cmd_of_busy {s : State} (h : s.busy = true) (w : Word) :
    busWrite 0x00014#20 0xF#4 w s = (s, .error 0x00014#20) := by
  simp [busWrite, decodeAddr, fixedTargets, Target.readOnly, Target.writableWhileBusy, h]

/-- Settles O38: an idle block issues the word, and a busy one refuses it. -/
theorem everyCommandWordIsAccepted : Obligations.EveryCommandWordIsAccepted := fun w s =>
  ⟨fun hi => ⟨issue w s, busWrite_cmd_of_idle hi w, rfl, rfl⟩,
    fun hi => busWrite_cmd_of_busy (Option.isSome_iff_ne_none.mpr hi) w⟩

/-! ## Execution -/

theorem execute_of_instr {w : Word} {i : Instr} (h : decode w = .instr i) (s : State) : execute w s = exec i s := by
  simp only [execute, h]

theorem withFetchWord_toNat (s : State) (w : Word) : s.withFetchWord 32 w.toNat = loadCommand w s := by
  simp [State.withFetchWord, Nat.mod_eq_of_lt w.isLt]

/-- R161: the Engine's step with a command in flight is `exec` of that command. -/
theorem step_of_engine_instr {s : State} {w : Word} {i : Instr} (hw : s.inflight = some w)
    (hn : nextMove s = .engine) (hd : decode w = .instr i) : step s = exec i (popMove s) := by
  rw [step_of_engine hn hw, execute_of_instr hd]

/-- Settles O20: a word that `withFetchWord` lays is in flight with no move scheduled, so the Engine moves and no move
is taken off. -/
theorem stepRunsTheDecodedCommand : Obligations.StepRunsTheDecodedCommand := by
  refine ⟨fun s w i hw hn hd => step_of_engine_instr hw hn hd, fun s i w hd => ?_⟩
  have hn : nextMove (loadCommand w s) = .engine := nextMove_engine_of_inflight rfl rfl
  rw [withFetchWord_toNat, step_of_engine_instr rfl hn hd, popMove_of_schedule_nil rfl]

/-! ## Completion -/

theorem maskEval_irqErr (s : State) : (maskEval s).irqErr = s.irqErr := by
  obtain ⟨score, pen, h⟩ := scoreAll_frame s
  rw [maskEval, h]
  rfl

/-- R26: no effect clears or sets the sticky IRQ_STAT.ERR; the completion record alone does. -/
theorem effectOf_irqErr (i : Instr) (s : State) : (effectOf i s).irqErr = s.irqErr := by
  cases i with
  | maskEval => exact maskEval_irqErr s
  | nop | setVersion | gfMul | gfExp | rsSetup | rsClear | rsFeed | penScore | maskApply | bchFormat | bchVersion => rfl

/-- R163: the record is that of a command which began in `s` if the sticky IRQ_STAT.ERR is still that of `s`. -/
theorem completed_complete (code : ResultCode) (op : Byte) {s u : State} (h : u.irqErr = s.irqErr) :
    Completed code op s (complete code op u) := by
  simp [Completed, h]

/-- R163: a command completes with the code of its meaning. -/
theorem exec_completed (i : Instr) (s : State) : ∃ t, exec i s = .next t ∧ Completed (codeOf i s) i.opcode s t := by
  obtain ⟨t, he⟩ := exec_answers i s
  refine ⟨t, he, ?_⟩
  obtain ⟨hcode, rfl⟩ | ⟨-, rfl⟩ := exec_cases he
  · exact hcode ▸ completed_complete .ok i.opcode (effectOf_irqErr i s)
  · exact completed_complete (codeOf i s) i.opcode rfl

/-- R162, R163: a word completes with the code of `check`, whoever decides it: the decoder or the meaning. -/
theorem execute_completed (w : Word) (s : State) :
    ∃ t, execute w s = .next t ∧ Completed (check w s) (opField w) s t := by
  cases hd : decode w with
  | instr i =>
    obtain ⟨hcode, hop⟩ := check_of_instr hd s
    rw [execute_of_instr hd, hcode, ← hop]
    exact exec_completed i s
  | illegalOp => exact ⟨_, execute_of_check_failed (by simp [check_of_illegalOp hd]), completed_complete _ _ rfl⟩
  | badArg => exact ⟨_, execute_of_check_failed (by simp [check_of_badArg hd]), completed_complete _ _ rfl⟩

theorem engineStep_of_inflight {s : State} {w : Word} (h : s.inflight = some w) : engineStep s = execute w s := by
  simp only [engineStep, h]

/-- Settles O13: the Engine's step executes the word in flight, which completes with its checked code. -/
theorem engineCompletesWithTheCheckedCode : Obligations.EngineCompletesWithTheCheckedCode := by
  intro w s hw
  rw [engineStep_of_inflight hw]
  exact execute_completed w s

end Sys2Proof.Machine
end

section
/-! PROOFS. The control commands NOP and SET_VERSION (44_control.md R165, R166). -/

namespace Sys2Proof.Machine

/-! ## Result codes -/

theorem setVersionCode_of_inRange {v : Byte} {s : State} (h1 : 1 ≤ v.toNat)
    (h : v.toNat ≤ s.params.maxVersion.toNat) : setVersionCode v s = .ok := by
  simp [setVersionCode, codeIf, h1, h]

theorem setVersionCode_of_outOfRange {v : Byte} {s : State}
    (h : v.toNat = 0 ∨ s.params.maxVersion.toNat < v.toNat) : setVersionCode v s = .badArg := by
  simp only [setVersionCode, codeIf, ite_eq_right_iff, Bool.and_eq_true, decide_eq_true_eq]
  omega

/-! ## The commands -/

/-- SET_VERSION with an argument in range (R166). -/
theorem exec_setVersion {v : Byte} {s : State} (h1 : 1 ≤ v.toNat) (h : v.toNat ≤ s.params.maxVersion.toNat) :
    exec (.setVersion v) s = .next (complete .ok 0x01#8 (setVersion v s)) :=
  exec_ok (setVersionCode_of_inRange h1 h)

/-- Settles O1: the row of NOP admits A = B = 0 only, and its effect changes nothing. -/
theorem nopChangesOnlyTheRecord : Obligations.NopChangesOnlyTheRecord := by
  refine ⟨by decide, fun s => ⟨codesOf_of_row (by decide) ?_ (by simp [unconfiguredFor]), ?_, _, exec_ok rfl,
    onlyCompleted_complete ..⟩⟩
  · intro w
    simp only [argsInRange, true_or, if_true, Bool.and_eq_false_iff, decide_eq_false_iff_not]
    tauto
  · have hbad : check 0x00000100#32 s = .badArg := check_of_badArg (by decide) s
    obtain ⟨t, he, hdone, hframe⟩ := execute_onlyCompleted hbad (by decide)
    have ⟨_, _, _, herr, _⟩ := hdone
    exact ⟨t, he, by simp [herr], hdone, hframe⟩

/-- Settles O2: the row of SET_VERSION bounds A by P_MAX_VERSION and admits B = 0 only, and its effect is to set the
version and drop the selection; N follows the version. -/
theorem setVersionSelectsTheSymbolSize : Obligations.SetVersionSelectsTheSymbolSize := by
  refine ⟨fun v => by simp [encode, commandWord, Instr.opcode],
    fun v s => ⟨codesOf_of_row (by decide) ?_ (by simp [unconfiguredFor]), fun h1 hv => ?_,
      fun h => exec_onlyCompleted (i := .setVersion v) (setVersionCode_of_outOfRange h) (by decide)⟩⟩
  · intro w
    simp only [argsInRange, BitVec.reduceEq, or_self, if_false, if_true, Bool.and_eq_false_iff,
      decide_eq_false_iff_not, not_le, Nat.lt_one_iff]
    tauto
  · have hne : v ≠ 0#8 := by
      rintro rfl
      exact absurd h1 (by decide)
    refine ⟨_, exec_setVersion h1 hv, completed_complete .ok 0x01#8 rfl, rfl, side_of_configured hne, ?_, rfl, ?_, ?_⟩
    · simp [State.verReady, hne]
    · rintro rfl hec
      simp [State.cfgWord, State.side, hec]
    · simp [SameControl, SameResults, SameEncoder, SameScores, SameCells, SameAgents, State.byteAt]

end Sys2Proof.Machine
end

section
/-! PROOFS. What can go wrong and what a completion signals (60_exceptions.md): the causes of a bus error (R181), the
failed command (R164, R187), the interrupt output and its acknowledgement (R186, R190). -/

namespace Sys2Proof.Machine

/-! ## Failed commands -/

/-- Inversion of `execute_completed`: there is one next state, so it is the one that bears the record. -/
theorem completed_of_execute {w : Word} {s t : State} (h : execute w s = .next t) :
    Completed (check w s) (opField w) s t := by
  obtain ⟨u, hu, hdone⟩ := execute_completed w s
  cases h.symm.trans hu
  exact hdone

/-- Settles O14: the code of the record is that of `check`, and a word that fails its check writes the record only. -/
theorem failedCommandHasNoOtherEffect : Obligations.FailedCommandHasNoOtherEffect := by
  intro w s t h hne
  obtain ⟨hcode, -⟩ := completed_of_execute h
  obtain ⟨u, hu, honly⟩ := execute_onlyCompleted hcode.symm hne
  cases h.symm.trans hu
  exact honly

/-! ## The interrupt output -/

theorem irq_iff (s : State) :
    s.irq = true ↔ (s.ieDone = true ∧ s.irqDone = true) ∨ (s.ieErr = true ∧ s.irqErr = true) := by
  simp only [State.irq, Bool.or_eq_true, Bool.and_eq_true]

theorem sameControl_maskEval (s : State) : SameControl s (maskEval s) := by
  obtain ⟨score, pen, h⟩ := scoreAll_frame s
  rw [maskEval, h]
  exact ⟨rfl, rfl, rfl⟩

/-- R24: no effect touches the interrupt enables. -/
theorem effectOf_sameControl (i : Instr) (s : State) : SameControl s (effectOf i s) := by
  cases i with
  | maskEval => exact sameControl_maskEval s
  | nop | setVersion | gfMul | gfExp | rsSetup | rsClear | rsFeed | penScore | maskApply | bchFormat | bchVersion =>
    exact ⟨rfl, rfl, rfl⟩

theorem execute_sameControl {w : Word} {s t : State} (h : execute w s = .next t) : SameControl s t := by
  obtain ⟨i, -, he⟩ | ⟨-, rfl⟩ | ⟨-, rfl⟩ := execute_cases h
  · obtain ⟨-, rfl⟩ | ⟨-, rfl⟩ := exec_cases he
    · exact effectOf_sameControl i s
    · exact ⟨rfl, rfl, rfl⟩
  · exact ⟨rfl, rfl, rfl⟩
  · exact ⟨rfl, rfl, rfl⟩

/-- R190: the level of `irq` after a completion, from the enables and the pending error before it. -/
theorem irq_of_completed {code : ResultCode} {op : Byte} {s t : State} (hdone : Completed code op s t)
    (hctl : SameControl s t) :
    t.irq = true ↔ s.ieDone = true ∨ (s.ieErr = true ∧ (code ≠ .ok ∨ s.irqErr = true)) := by
  obtain ⟨-, -, hirqDone, hirqErr, -⟩ := hdone
  obtain ⟨-, hieDone, hieErr⟩ := hctl
  rw [irq_iff, hirqDone, hirqErr, hieDone, hieErr, Bool.or_eq_true, decide_eq_true_eq]
  tauto

/-- R188: a write of both bits to IRQ_STAT drops `irq`, whatever is enabled. -/
theorem irq_writeIrqStat_both (s : State) : (writeIrqStat 0x3#32 s).irq = false := by
  simp [State.irq, writeIrqStat]

/-- Settles O31: a completion sets DONE, adds its own error to ERR and keeps the enables. -/
theorem completionRaisesTheEnabledInterrupt : Obligations.CompletionRaisesTheEnabledInterrupt := by
  refine ⟨irq_iff, rfl, fun w s t hw h => ⟨?_, irq_writeIrqStat_both t⟩⟩
  rw [engineStep_of_inflight hw] at h
  exact irq_of_completed (completed_of_execute h) (execute_sameControl h)

/-- Settles O26: the clear leaves the command in flight, so its completion sets DONE again. -/
theorem laterEventDecidesDone : Obligations.LaterEventDecidesDone := by
  intro w s t hw _
  have hclear : (writeIrqStat 0x1#32 t).irqDone = false := by simp [writeIrqStat]
  have hfly : (writeIrqStat 0x1#32 s).inflight = some w := hw
  obtain ⟨u, hu, -, -, hdone, -⟩ := engineCompletesWithTheCheckedCode w _ hfly
  exact ⟨hclear, u, hu, hdone⟩

/-! ## Every step answers -/

theorem engineStep_answers (s : State) : ∃ t, engineStep s = .next t := by
  cases hi : s.inflight with
  | none => exact ⟨s, by simp only [engineStep, hi]⟩
  | some w =>
    rw [engineStep_of_inflight hi]
    exact execute_answers w s

theorem makeMove_answers (m : Move) (s : State) : ∃ t, makeMove m s = .next t := by
  cases m with
  | host => exact ⟨hostStep s, rfl⟩
  | engine => exact engineStep_answers s
  | rst => exact ⟨resetBlock s, rfl⟩

/-- Settles O22: a step is a move of one agent, and each agent's move answers. -/
theorem everyStepAnswers : Obligations.EveryStepAnswers := fun s => makeMove_answers (nextMove s) (popMove s)

/-! ## Bus errors -/

/-- R53, R57: the first and the third cause. -/
theorem decodeAddr_eq_none_iff {p : Params} (hp : p.wf = true) (a : BusAddr) :
    decodeAddr p a = none ↔ a.toNat % 4 ≠ 0 ∨ ∀ t : Target, t.present p = true → t.addr ≠ a.toNat := by
  constructor
  · intro h
    refine .inr fun t hpres haddr => ?_
    rw [decodeAddr_of_present hp hpres haddr] at h
    cases h
  · rintro (halign | hfree)
    · simp only [decodeAddr]
      rw [if_pos halign]
    · by_contra hmap
      obtain ⟨t, ht⟩ := Option.ne_none_iff_exists'.mp hmap
      obtain ⟨hpres, haddr⟩ := present_of_decodeAddr ht
      exact hfree t hpres haddr

theorem busWrite_of_unmapped {s : State} {a : BusAddr} (h : decodeAddr s.params a = none) (strobes : BitVec 4)
    (v : Word) : busWrite a strobes v s = (s, .error a) := by
  simp only [busWrite, h]

/-- R181: the causes of an error of a write to a mapped address. -/
theorem busWrite_error_iff_of_mapped {s : State} {a : BusAddr} {t : Target} (h : decodeAddr s.params a = some t)
    (strobes : BitVec 4) (v : Word) :
    (busWrite a strobes v s).2 = .error a ↔
      strobes ≠ 0xF#4 ∨ t.readOnly = true ∨ (s.busy = true ∧ ¬ t.writableWhileBusy = true) := by
  simp only [busWrite, h]
  split_ifs with hstrobes hro hbusy
  · simp [hstrobes]
  · simp [hro]
  · simpa [hstrobes, hro] using hbusy
  · simpa [hstrobes, hro] using hbusy

/-- R221: CTRL and IRQ_STAT are told from the other targets by their addresses. -/
theorem writableWhileBusy_iff_addr {p : Params} (hp : p.wf = true) {a : BusAddr} {t : Target}
    (h : decodeAddr p a = some t) :
    t.writableWhileBusy = true ↔ a.toNat = Target.ctrl.addr ∨ a.toNat = Target.irqStat.addr := by
  have eq_iff {u : Target} (hu : u.present p = true) : t = u ↔ a.toNat = u.addr := by
    constructor
    · rintro rfl
      exact (present_of_decodeAddr h).2.symm
    · intro ha
      exact Option.some.inj (h.symm.trans (decodeAddr_of_present hp hu ha.symm))
  simp only [Target.writableWhileBusy, Bool.or_eq_true, decide_eq_true_eq]
  rw [eq_iff rfl, eq_iff rfl]

/-- The registers and cells at a mapped address are the one that it selects. -/
theorem exists_readOnly_iff {p : Params} (hp : p.wf = true) {a : BusAddr} {t : Target} (h : decodeAddr p a = some t) :
    (∃ u : Target, u.present p = true ∧ u.addr = a.toNat ∧ u.readOnly = true) ↔ t.readOnly = true := by
  constructor
  · rintro ⟨u, hpres, haddr, hro⟩
    cases h.symm.trans (decodeAddr_of_present hp hpres haddr)
    exact hro
  · intro hro
    obtain ⟨hpres, haddr⟩ := present_of_decodeAddr h
    exact ⟨t, hpres, haddr, hro⟩

theorem busWrite_error_iff {s : State} (hp : s.params.wf = true) (a : BusAddr) (strobes : BitVec 4) (v : Word) :
    (busWrite a strobes v s).2 = .error a ↔
      a.toNat % 4 ≠ 0 ∨ strobes ≠ 0xF#4 ∨ (∀ t : Target, t.present s.params = true → t.addr ≠ a.toNat)
        ∨ (∃ t : Target, t.present s.params = true ∧ t.addr = a.toNat ∧ t.readOnly = true)
        ∨ (s.busy = true ∧ a.toNat ≠ Target.ctrl.addr ∧ a.toNat ≠ Target.irqStat.addr) := by
  have hmap := decodeAddr_eq_none_iff hp a
  cases h : decodeAddr s.params a with
  | none =>
    have herr : (busWrite a strobes v s).2 = .error a := by rw [busWrite_of_unmapped h]
    have hcause := hmap.mp h
    tauto
  | some t =>
    rw [h] at hmap
    rw [busWrite_error_iff_of_mapped h, writableWhileBusy_iff_addr hp h, exists_readOnly_iff hp h]
    have hnocause := mt hmap.mpr (by simp)
    tauto

theorem busRead_error_iff (a : BusAddr) (s : State) : (busRead a s).2 = .error a ↔ decodeAddr s.params a = none := by
  obtain ⟨hnone, he⟩ | ⟨t, ht, ⟨-, -, he⟩ | ⟨-, he⟩⟩ := busRead_cases a s
  · simp [he, hnone]
  · simp [he, ht]
  · simp [he, ht]

/-- Settles O32: the address decides the causes of a read; a write to a mapped address adds those of its target. -/
theorem busErrorsHaveFiveCauses : Obligations.BusErrorsHaveFiveCauses := by
  intro a strobes v s hp
  refine ⟨busWrite_error_iff hp a strobes v, ?_, ?_, (busRead_error_iff a s).trans (decodeAddr_eq_none_iff hp a), ?_⟩
  · intro herr
    obtain he | ⟨t, -, -, -, -, he⟩ := busWrite_cases a strobes v s
    · rw [he]
    · rw [he] at herr
      cases herr
  · intro hok
    obtain he | ⟨t, -, -, -, -, he⟩ := busWrite_cases a strobes v s
    · exact absurd (congrArg Prod.snd he) hok
    · rw [he]
  · intro herr
    obtain ⟨-, he⟩ | ⟨t, ht, -⟩ := busRead_cases a s
    · rw [he]
    · rw [busRead_error_iff, ht] at herr
      cases herr

end Sys2Proof.Machine
end

section
/-! PROOFS. The bus while a command is in flight (70_reset_and_hazards.md R212, R220, R221): what reads and writes
answer, and that a Host step resets the block or leaves the command alone. -/

namespace Sys2Proof.Machine

/-! ## Reset -/

/-- Settles O28: a write to CTRL is accepted busy or not, and with bit 31 = 1 its effect is the reset of the block. -/
theorem softResetCancelsAndClears : Obligations.SoftResetCancelsAndClears := by
  intro s v h
  refine ⟨_, busWrite_ctrl v s, ?_⟩
  rw [writeCtrl_reset h]
  exact ⟨resetValues_resetBlock s, rfl⟩

/-! ## Reads -/

/-- R220: the registers that a command in flight does not hide. -/
theorem hiddenWhileBusy_eq_false_iff {t : Target} :
    t.hiddenWhileBusy = false ↔
      t = .id ∨ t = .params ∨ t = .ctrl ∨ t = .status ∨ t = .irqStat ∨ t = .cmd := by
  cases t <;> simp [Target.hiddenWhileBusy]

/-- R220: a read of a hidden register answers the next free value and counts it. -/
theorem busRead_of_hidden {a : BusAddr} {s : State} {t : Target} (ht : decodeAddr s.params a = some t)
    (hb : s.busy = true) (hh : t.hiddenWhileBusy = true) :
    busRead a s = ({ s with draws := s.draws + 1 }, .data (Config.freeDraw s.draws)) := by
  simp [busRead, ht, hb, hh]

theorem busRead_status (s : State) : busRead 0x0000C#20 s = (s, .data s.statusWord) :=
  busRead_of_not_hidden (t := .status) rfl (by simp [Target.hiddenWhileBusy])

/-- Setting bit 0 of a word changes its lowest bit only. -/
theorem append_ofBool_or_one (x : BitVec 31) (b : Bool) :
    x ++ BitVec.ofBool b ||| 0x1#32 = x ++ BitVec.ofBool true := by
  have hone : (0x1#32) = 0#31 ++ BitVec.ofBool true := rfl
  rw [hone, BitVec.or_append, BitVec.or_zero, BitVec.ofBool_or_ofBool, Bool.or_true]

/-- R220: a command just issued sets BUSY in STATUS; the rest still describes the command completed before. -/
theorem statusWord_issue (w : Word) (s : State) : (issue w s).statusWord = s.statusWord ||| 0x1#32 :=
  (append_ofBool_or_one _ s.busy).symm

/-- Settles O36: the hidden registers answer a free value, the other six their word; STATUS is one of the six. -/
theorem busyReadsAreFreeOrValid : Obligations.BusyReadsAreFreeOrValid := by
  refine ⟨fun a t s ht hb => ⟨fun hsix => ?_, fun hsix => ?_⟩, fun w s _ => ?_⟩
  · exact busRead_of_not_hidden ht (by simp [hiddenWhileBusy_eq_false_iff.mpr hsix])
  · exact busRead_of_hidden ht hb (by simpa using mt hiddenWhileBusy_eq_false_iff.mp hsix)
  · rw [busRead_status, statusWord_issue]

/-! ## Writes -/

/-- R221: a write to a register that can be written while busy is accepted, busy or not. -/
theorem busWrite_of_writableWhileBusy {a : BusAddr} {s : State} {t : Target} (ht : decodeAddr s.params a = some t)
    (hro : t.readOnly = false) (hw : t.writableWhileBusy = true) (v : Word) :
    busWrite a 0xF#4 v s = (writeTarget t v s, .written) := by
  simp [busWrite, ht, hro, hw]

/-- Settles O37: CTRL and IRQ_STAT are the targets that a busy block accepts a write to. -/
theorem busyWritesAreRefused : Obligations.BusyWritesAreRefused := by
  intro a t v s ht hb
  refine ⟨?_, ?_, fun hctrl hirq => ?_⟩
  · rintro rfl
    exact busWrite_of_writableWhileBusy ht rfl rfl v
  · rintro rfl
    exact busWrite_of_writableWhileBusy ht rfl rfl v
  · obtain he | ⟨t', ht', -, -, hbusy, -⟩ := busWrite_cases a 0xF#4 v s
    · exact he
    · cases ht.symm.trans ht'
      exact ((hbusy hb).elim hctrl hirq).elim

/-- R221: a write to a busy block resets it, or changes the interrupt enables and flags and nothing else. -/
theorem busWrite_of_busy {s : State} (hb : s.busy = true) (a : BusAddr) (strobes : BitVec 4) (v : Word) :
    (busWrite a strobes v s).1 = resetBlock s ∨
      ∃ ieDone ieErr irqDone irqErr, (busWrite a strobes v s).1
        = { s with ieDone := ieDone, ieErr := ieErr, irqDone := irqDone, irqErr := irqErr } := by
  obtain he | ⟨t, -, -, -, hbusy, he⟩ := busWrite_cases a strobes v s <;> rw [he]
  · exact .inr ⟨_, _, _, _, rfl⟩
  obtain rfl | rfl := hbusy hb
  · cases h : v.getLsbD 31 with
    | true => exact .inl (writeCtrl_reset h s)
    | false => exact .inr ⟨_, _, _, _, writeCtrl_enables h s⟩
  · exact .inr ⟨_, _, _, _, rfl⟩

/-! ## A Host step -/

/-- R221: a step of the Host while a command is in flight resets the block, or changes the interrupt enables and flags,
the count of free answers and the Host's own data, and nothing else. -/
theorem hostStep_of_busy {s : State} (hb : s.busy = true) :
    (∃ pc r, hostStep s = { resetBlock s with hostPc := pc, resp := r }) ∨
      ∃ ieDone ieErr irqDone irqErr draws pc temps r, hostStep s
        = { s with ieDone := ieDone, ieErr := ieErr, irqDone := irqDone, irqErr := irqErr, draws := draws,
                   hostPc := pc, temps := temps, resp := r } := by
  obtain he | ⟨a, strobes, v, -, he⟩ | ⟨a, t, -, he⟩ := hostStep_cases s <;> rw [he]
  · exact .inr ⟨_, _, _, _, _, _, _, _, rfl⟩
  · rw [afterBus]
    obtain hw | ⟨_, _, _, _, hw⟩ := busWrite_of_busy hb a strobes v <;> rw [hw]
    · exact .inl ⟨_, _, rfl⟩
    · exact .inr ⟨_, _, _, _, _, _, _, _, rfl⟩
  · rw [storeData_frame, afterBus, busRead_state]
    exact .inr ⟨_, _, _, _, _, _, _, _, rfl⟩

/-- The reset values are the block's: the Host's position and the last answer are none of them. -/
theorem ResetValues.of_hostData {s : State} (h : ResetValues s) (pc : Nat) (r : Option Response) :
    ResetValues { s with hostPc := pc, resp := r } := h

/-- Settles O41: what a Host step changes while busy, short of a reset, is no input of the command. -/
theorem hostCannotDisturbACommand : Obligations.HostCannotDisturbACommand := by
  intro s hb
  obtain ⟨pc, r, he⟩ | ⟨_, _, _, _, _, _, _, _, he⟩ := hostStep_of_busy hb <;> rw [he]
  · exact .inl ((resetValues_resetBlock s).of_hostData pc r)
  · simp [SameResults, SameEncoder, SameSelection, SameScores]

end Sys2Proof.Machine
end

section
/-! PROOFS. A command in flight ends (70_reset_and_hazards.md R218): the Engine's move and a reset end it at once, and a
Host move that leaves it in flight uses up one move of the schedule. -/

namespace Sys2Proof.Machine

theorem run_succ {M : Host.Core} {s t : M.State} (h : M.step s = .next t) (k : Nat) :
    M.run (k + 1) s = M.run k t := by
  simp only [Host.Core.run, h]

theorem run_one {s t : State} (h : step s = .next t) : Sys2Proof.core.run 1 s = .next t :=
  run_succ (M := Sys2Proof.core) h 0

/-- R162: the Engine's move ends the command in flight. -/
theorem step_of_engine_ends {s : State} (hn : nextMove s = .engine) (hi : s.inflight ≠ none) :
    ∃ t, step s = .next t ∧ t.inflight = none := by
  obtain ⟨w, hw⟩ := Option.ne_none_iff_exists'.mp hi
  obtain ⟨t, he, -, -, -, -, hnone⟩ := execute_completed w (popMove s)
  exact ⟨t, (step_of_engine hn hw).trans he, hnone⟩

/-- R210: a pulse of `rst` cancels the command in flight. -/
theorem step_of_rst {s : State} (h : nextMove s = .rst) : step s = .next (resetBlock (popMove s)) := by
  simp only [step, h, makeMove]

/-- R221: a Host step cancels the command in flight by a reset, or leaves it there and the moves to come. -/
theorem hostStep_inflight_of_busy {s : State} (hb : s.busy = true) :
    (hostStep s).inflight = none ∨
      ((hostStep s).inflight = s.inflight ∧ (hostStep s).schedule = s.schedule) := by
  obtain ⟨pc, r, he⟩ | ⟨_, _, _, _, _, _, _, _, he⟩ := hostStep_of_busy hb <;> rw [he]
  · exact .inl rfl
  · exact .inr ⟨rfl, rfl⟩

/-- R218: by induction on the moves to come. -/
theorem inflight_ends {schedule : List Move} {s : State} (hs : s.schedule = schedule) (hi : s.inflight ≠ none) :
    ∃ k t, k ≤ schedule.length + 1 ∧ Sys2Proof.core.run k s = .next t ∧ t.inflight = none := by
  induction schedule generalizing s with
  | nil =>
    obtain ⟨w, hw⟩ := Option.ne_none_iff_exists'.mp hi
    obtain ⟨t, hstep, hnone⟩ := step_of_engine_ends (nextMove_engine_of_inflight hs hw) hi
    exact ⟨1, t, by simp, run_one hstep, hnone⟩
  | cons m moves ih =>
    have hn : nextMove s = m := by simp only [nextMove, hs]
    have at_once {t : State} (hstep : step s = .next t) (hnone : t.inflight = none) :
        ∃ k t, k ≤ (m :: moves).length + 1 ∧ Sys2Proof.core.run k s = .next t ∧ t.inflight = none :=
      ⟨1, t, by simp, run_one hstep, hnone⟩
    cases m with
    | engine =>
      obtain ⟨t, hstep, hnone⟩ := step_of_engine_ends hn hi
      exact at_once hstep hnone
    | rst => exact at_once (step_of_rst hn) rfl
    | host =>
      have hstep := step_of_host hn
      have hb : (popMove s).busy = true := Option.isSome_iff_ne_none.mpr hi
      obtain hnone | ⟨hsame, hmoves⟩ := hostStep_inflight_of_busy hb
      · exact at_once hstep hnone
      · obtain ⟨k, t, hk, hrun, hnone⟩ := ih (s := hostStep (popMove s)) (by simp [hmoves, hs]) (hsame ▸ hi)
        exact ⟨k + 1, t, Nat.succ_le_succ hk, (run_succ (M := Sys2Proof.core) hstep k).trans hrun, hnone⟩

/-- Settles O25: by induction on the schedule. -/
theorem commandInFlightEnds : Obligations.CommandInFlightEnds := fun _ hi => inflight_ends rfl hi

end Sys2Proof.Machine
end

section
/-! PROOFS. Where the free values cannot show (70_reset_and_hazards.md R220, R224; 93_implementation_defined.md U1, U2):
the state meets them only through the counters `draws` and `resets`, so reads and commands are compared with and without
a change of the counters. -/

namespace Sys2Proof.Machine

/-- The state with other counters: other answers of `draw()` and other contents of the unwritten cells. -/
def State.withCounters (d k : Nat) (s : State) : State := { s with draws := d, resets := k }

/-! ## Reads -/

/-- U1: a written cell holds what was written, whichever free value it held before. -/
theorem cellAt_withCounters {s : State} {r c : Nat} (h : s.written r c = true) (d k : Nat) :
    (s.withCounters d k).cellAt r c = s.cellAt r c := by
  obtain ⟨b, hb⟩ := Option.isSome_iff_exists.mp h
  simp only [State.cellAt, State.byteAt, State.withCounters, hb]

/-- Of the registers and cells only an unwritten cell rests on a counter. -/
theorem readTarget_withCounters {s : State} {t : Target} (h : ∀ r c, t = .cell r c → s.written r c = true)
    (d k : Nat) : (s.withCounters d k).readTarget t = s.readTarget t := by
  cases t with
  | cell r c => simp only [State.readTarget, State.cellWord, cellAt_withCounters (h r c rfl)]
  | _ => rfl

/-- Settles O46: a stated read is not hidden, so it answers its register or cell, which rests on no counter. -/
theorem statedReadsRestOnNoFreeValue : Obligations.StatedReadsRestOnNoFreeValue := by
  intro s d k a t ht ⟨hvisible, hwritten⟩
  have hnot : ¬ (s.busy = true ∧ t.hiddenWhileBusy = true) := by
    rintro ⟨hb, hh⟩
    simp [hvisible hb] at hh
  change (busRead a (s.withCounters d k)).2 = _
  rw [busRead_of_not_hidden (s := s.withCounters d k) ht hnot, busRead_of_not_hidden ht hnot,
    readTarget_withCounters hwritten]

/-! ## Commands -/

theorem active_withCounters {s : State} (h : s.regionLoaded) (d k : Nat) :
    (s.withCounters d k).active = s.active :=
  active_congr (s := s.withCounters d k) rfl fun r c hr hc => cellAt_withCounters (h r c hr hc) d k

/-- R224: the scores of a loaded region rest on no counter. -/
theorem scoreAll_withCounters {s : State} (h : s.regionLoaded) (d k : Nat) :
    scoreAll (s.withCounters d k) = (scoreAll s).withCounters d k := by
  simp only [scoreAll, active_withCounters h]
  exact List.foldl_hom (State.withCounters d k) fun _ _ => rfl

/-- The flip of a written cell rests on no counter. -/
theorem flipInto_withCounters {s : State} {rc : Nat × Nat} (h : s.written rc.1 rc.2 = true) (d k : Nat) (m : MaskId)
    (mem : Memory) : flipInto m (s.withCounters d k) mem rc = flipInto m s mem rc := by
  simp only [flipInto, cellAt_withCounters h]

theorem maskApply_withCounters {s : State} (h : s.regionLoaded) (d k : Nat) (m : MaskId) :
    maskApply m (s.withCounters d k) = (maskApply m s).withCounters d k := by
  have hmem : (coords s.side).foldl (flipInto m (s.withCounters d k)) s.mem
      = (coords s.side).foldl (flipInto m s) s.mem := by
    refine List.foldl_ext _ _ _ fun mem rc hrc => ?_
    obtain ⟨hr, hc⟩ := mem_coords.mp hrc
    exact flipInto_withCounters (h rc.1 rc.2 hr hc) d k m mem
  have hframe : maskApply m (s.withCounters d k)
      = { (maskApply m s).withCounters d k with
          mem := (coords s.side).foldl (flipInto m (s.withCounters d k)) s.mem } := rfl
  rw [hframe, hmem]
  rfl

/-- R224: an effect that reads no unwritten cell rests on no counter. -/
theorem effectOf_withCounters {i : Instr} {s : State}
    (h : i.opcode = 0x30#8 ∨ i.opcode = 0x31#8 ∨ i.opcode = 0x32#8 → s.regionLoaded) (d k : Nat) :
    effectOf i (s.withCounters d k) = (effectOf i s).withCounters d k := by
  cases i with
  | penScore m =>
    simp only [effectOf, penScore, active_withCounters (h (.inl rfl))]
    rfl
  | maskEval =>
    simp only [effectOf, maskEval, scoreAll_withCounters (h (.inr (.inl rfl)))]
    rfl
  | maskApply m => exact maskApply_withCounters (h (.inr (.inr rfl))) d k m
  | nop | setVersion | gfMul | gfExp | rsSetup | rsClear | rsFeed | bchFormat | bchVersion => rfl

/-- R183: no check reads the matrix. -/
theorem codeOf_withCounters (i : Instr) (d k : Nat) (s : State) : codeOf i (s.withCounters d k) = codeOf i s := by
  cases i <;> rfl

/-- A command whose effect rests on no counter completes alike whatever they are. -/
theorem exec_withCounters {i : Instr} {s : State} {d k : Nat}
    (h : effectOf i (s.withCounters d k) = (effectOf i s).withCounters d k) :
    ∃ t, exec i s = .next t ∧ exec i (s.withCounters d k) = .next (t.withCounters d k) := by
  have hcode := codeOf_withCounters i d k s
  by_cases hok : codeOf i s = .ok
  · exact ⟨_, exec_ok hok, by rw [exec_ok (hcode.trans hok), h]; rfl⟩
  · exact ⟨_, exec_failed hok, by rw [exec_failed (by rwa [hcode]), hcode]; rfl⟩

/-- Settles O47: a word that the decoder rejects writes the record only, and a command finds the region it reads
loaded. -/
theorem statedCommandsRestOnNoFreeValue : Obligations.StatedCommandsRestOnNoFreeValue := by
  intro s d k w h
  change ∃ t, execute w s = .next t ∧ execute w (s.withCounters d k) = .next (t.withCounters d k)
  cases hd : decode w with
  | instr i =>
    obtain ⟨-, hop⟩ := check_of_instr hd s
    simp only [execute_of_instr hd]
    exact exec_withCounters (effectOf_withCounters (hop ▸ h) d k)
  | illegalOp | badArg =>
    simp only [execute, hd]
    exact ⟨_, rfl, rfl⟩

end Sys2Proof.Machine
end
